-- ==== Sys2Proof/Word.lean ====
section
/-!
DEFINITION. The two word types of the codec: the status byte (rule R40) and the 32-bit request and response words
(rule R41). Bit 0 is the least significant bit of each (rule R7); every value is unsigned (rules R8, R77).
-/

namespace Sys2Proof

/-- A status byte, `SB[7:0]`: the source's `u8` (rules R5, R40). -/
abbrev Byte := BitVec 8

/-- A request word `REQ` or a response word `RSP` (rule R41, decisions D3 and D4). -/
abbrev Word := BitVec 32

end Sys2Proof
end

