-- ==== Sys2Proof/Syntax.lean ====
section
/-!
DEFINITION. The syntax of the codec: the enumerations of rule R50, the telegram of rule R40, the commands of rule R44
and the ten request forms of rule R56, one constructor of `Instr` per row of spec/opcode_table.json. Every field the
table gives a row is an operand here, also where the spec says the operation carries it and does not read it.
-/

namespace Sys2Proof

/-- OrientationVariant, field `VAR` (rules R6, R50). -/
inductive Variant where
  | standard
  | inverted
deriving DecidableEq, Repr

/-- Channel, field `CH`: which of the two rockers a configuration observes (rule R50). -/
inductive Channel where
  | a
  | b
deriving DecidableEq, Repr

/-- RockerCode: `AI = 0, A0 = 1, BI = 2, B0 = 3` (rule R54). -/
inductive RockerCode where
  | ai
  | a0
  | bi
  | b0
deriving DecidableEq, Repr

/-- SwitchMode, field `MODE`; the fourth code of its two bits is reserved and names no mode (rule R50). -/
inductive SwitchMode where
  | rocker
  | toggleOnDir1
  | toggleOnDir2
deriving DecidableEq, Repr

/-- Command, field `CMD`: the four commands `encodeCommand` accepts (rules R44, R63). -/
inductive Command where
  | dir1Pressed
  | dir1Released
  | dir2Pressed
  | dir2Released
deriving DecidableEq, Repr

/-- Direction: the result of decoding a rocker code, `None`, `Dir1` or `Dir2` (rules R50, R85). -/
inductive Direction where
  | none
  | dir1
  | dir2
deriving DecidableEq, Repr

/-- Event: the six tags and the composite action form with the directions of channels A and B (rule R51). -/
inductive Event where
  | noEvent
  | dir1Pressed
  | dir1Released
  | dir2Pressed
  | dir2Released
  | released
  | action (da db : Direction)
deriving DecidableEq, Repr

/-- A telegram: status byte, `T21` (`isButtonTelegram`) and `NU` (`dataValid`), ten bits in all (rule R40). It has no
checksum, trailer or sender address (rule R4). -/
structure Telegram where
  sb : Byte
  t21 : Bool
  nu : Bool
deriving DecidableEq, Repr

/-- The ten request forms (rule R56), one constructor per row of spec/opcode_table.json, operands in the order of the
row's fields from low bits to high. -/
inductive Instr where
  /-- `DECEV.DIR` (rule R91): `last` is the 3-bit event code of `LAST`. -/
  | decevDir (t : Telegram) (var : Variant) (ch : Channel) (last : BitVec 3)
  /-- `DECEV.ACT` (rule R92): `var`, `ch` and `last` are carried and never read. -/
  | decevAct (t : Telegram) (var : Variant) (ch : Channel) (last : BitVec 3)
  /-- `NXTST.ROCKER` (rule R114): `csv`, `csb` are carried and not read. -/
  | nxtstRocker (t : Telegram) (d1c d2c : RockerCode) (hsa ud csv csb : Bool)
  /-- `NXTST.TGL1` (rule R115): `d2c` is carried and not read. -/
  | nxtstTgl1 (t : Telegram) (d1c d2c : RockerCode) (hsa ud csv csb : Bool)
  /-- `NXTST.TGL2` (rule R116): `d1c` is carried and not read. -/
  | nxtstTgl2 (t : Telegram) (d1c d2c : RockerCode) (hsa ud csv csb : Bool)
  /-- `ENCMD.D1P` (rule R132). -/
  | encmdD1P (var : Variant) (ch : Channel)
  /-- `ENCMD.D1R` (rule R131): `var`, `ch` are carried and not read. -/
  | encmdD1R (var : Variant) (ch : Channel)
  /-- `ENCMD.D2P` (rule R133). -/
  | encmdD2P (var : Variant) (ch : Channel)
  /-- `ENCMD.D2R` (rule R131): `var`, `ch` are carried and not read. -/
  | encmdD2R (var : Variant) (ch : Channel)
  /-- `TEACH` (rule R141): the telegram's `NU` is carried and not read (rule R142). -/
  | teach (t : Telegram) (var : Variant)
deriving DecidableEq, Repr

end Sys2Proof
end

