-- ==== Sys2Proof/WellFormed.lean ====
section
/-!
DEFINITION. Which terms of `Instr` are valid requests: the extra validity conditions of rule R56. The other conditions
of rule R57 (a reserved bit set, `MODE` = 3) cannot be written as a term of `Instr`; `Decode.lean` rejects their words.
-/

namespace Sys2Proof

/-- `LAST` is an event code: 7 is not one (rules R53, R57). -/
def lastValid (last : BitVec 3) : Bool := last != 7#3

/-- `CSV` = 0 with `CSB` = 1 is not an encoding of anything (rules R52, R57). -/
def stateValid (csv csb : Bool) : Bool := csv || !csb

/-- A term is a valid request: the extra condition of its row in rule R56 holds. -/
def Instr.wf : Instr → Bool
  | .decevDir _ _ _ last => lastValid last
  | .decevAct _ _ _ last => lastValid last
  | .nxtstRocker _ _ _ _ _ csv csb => stateValid csv csb
  | .nxtstTgl1 _ _ _ _ _ csv csb => stateValid csv csb
  | .nxtstTgl2 _ _ _ _ _ csv csb => stateValid csv csb
  | .encmdD1P _ _ => true
  | .encmdD1R _ _ => true
  | .encmdD2P _ _ => true
  | .encmdD2R _ _ => true
  | .teach _ _ => true

end Sys2Proof
end

