-- ==== Sys2Proof/Decode.lean ====
section
/-!
DEFINITION. The numbers of the enumerations (rules R50, R51, R54), the decoder of request words (rules R42 to R45, R55
to R57), total on any word and on any bytes and rejecting by name, then the encoder written from the same formats, and
the opcode map of rule R56 as rows of mask and match.
-/

namespace Sys2Proof

/-! ## Numbers of the enumerations -/

/-- `VAR`: 0 = Standard, 1 = Inverted (rule R50, decision D5). -/
def Variant.bit : Variant → BitVec 1
  | .standard => 0#1
  | .inverted => 1#1

/-- The variant a `VAR` bit names (rule R50). -/
def Variant.ofBit (v : BitVec 1) : Variant := if v = 0#1 then .standard else .inverted

/-- `CH`: 0 = A, 1 = B (rule R50, decision D5). -/
def Channel.bit : Channel → BitVec 1
  | .a => 0#1
  | .b => 1#1

/-- The channel a `CH` bit names (rule R50). -/
def Channel.ofBit (v : BitVec 1) : Channel := if v = 0#1 then .a else .b

/-- The source's numbers of the rocker codes: AI = 0, A0 = 1, BI = 2, B0 = 3 (rule R54). -/
def RockerCode.code : RockerCode → BitVec 2
  | .ai => 0#2
  | .a0 => 1#2
  | .bi => 2#2
  | .b0 => 3#2

/-- The rocker code of a 2-bit field; each of the four values names one (rules R43, R54). -/
def RockerCode.ofCode (v : BitVec 2) : RockerCode :=
  if v = 0#2 then .ai else if v = 1#2 then .a0 else if v = 2#2 then .bi else .b0

/-- `MODE`: 0 = Rocker, 1 = ToggleOnDir1, 2 = ToggleOnDir2 (rule R50, decision D5). -/
def SwitchMode.code : SwitchMode → BitVec 2
  | .rocker => 0#2
  | .toggleOnDir1 => 1#2
  | .toggleOnDir2 => 2#2

/-- `CMD`: 0 = Dir1Pressed, 1 = Dir1Released, 2 = Dir2Pressed, 3 = Dir2Released (rule R50, decision D5). -/
def Command.code : Command → BitVec 2
  | .dir1Pressed => 0#2
  | .dir1Released => 1#2
  | .dir2Pressed => 2#2
  | .dir2Released => 3#2

/-- `DA`, `DB`: 0 = None, 1 = Dir1, 2 = Dir2; 3 is never produced (rule R50, decision D5). -/
def Direction.code : Direction → BitVec 2
  | .none => 0#2
  | .dir1 => 1#2
  | .dir2 => 2#2

/-- `EV`: the event codes 0 to 6; 7 is never produced (rule R51). -/
def Event.code : Event → BitVec 3
  | .noEvent => 0#3
  | .dir1Pressed => 1#3
  | .dir1Released => 2#3
  | .dir2Pressed => 3#3
  | .dir2Released => 4#3
  | .released => 5#3
  | .action _ _ => 6#3

/-! ## The decoder -/

/-- Why bytes or a word are no valid request (rule R57); the names are the model's. -/
inductive DecodeError where
  /-- Fewer than the four bytes of a request word: a word is presented whole (rule R31). -/
  | truncated
  /-- A reserved (`0`) bit of the word's format is 1. -/
  | reservedBit
  /-- `OP` = 1 and `MODE` = 3. -/
  | reservedMode
  /-- `OP` = 1, `CSV` = 0 and `CSB` = 1. -/
  | stateValueWithoutValid
  /-- `OP` = 0 and `LAST` = 7. -/
  | reservedLast
deriving DecidableEq, Repr

/-- The field of `n` bits of a word whose lowest bit is bit `lo`, taken as it stands (rule R55). -/
def bits (w : Word) (lo n : Nat) : BitVec n := w.extractLsb' lo n

/-- One bit of a word as a boolean: 1 = true (rule R50). -/
def flag (w : Word) (i : Nat) : Bool := w.getLsbD i

/-- `SB` 7..0, `T21` 8 and `NU` 9, at the same positions in formats D, N and T (rules R42, R43, R45). -/
def telegramOf (w : Word) : Telegram :=
  { sb := bits w 0 8, t21 := flag w 8, nu := flag w 9 }

/-- `VAR`, bit 10 of formats D, E and T. -/
def variantOf (w : Word) : Variant := Variant.ofBit (bits w 10 1)

/-- `CH`, bit 11 of formats D and E. -/
def channelOf (w : Word) : Channel := Channel.ofBit (bits w 11 1)

/-- Format D, `OP` = 0: a `DECEV` request; `ACT` (bit 12) selects the form (rule R42). -/
def decodeD (w : Word) : Except DecodeError Instr :=
  if bits w 16 14 ≠ 0#14 then .error .reservedBit
  else if bits w 13 3 = 7#3 then .error .reservedLast
  else if flag w 12 then .ok (.decevAct (telegramOf w) (variantOf w) (channelOf w) (bits w 13 3))
  else .ok (.decevDir (telegramOf w) (variantOf w) (channelOf w) (bits w 13 3))

/-- The request of a valid format N word: `MODE` (bits 16..15) selects the form; 3 is reserved (rule R43). -/
def decodeMode (w : Word) : Except DecodeError Instr :=
  let t := telegramOf w
  let d1c := RockerCode.ofCode (bits w 10 2)
  let d2c := RockerCode.ofCode (bits w 12 2)
  if bits w 15 2 = 0#2 then .ok (.nxtstRocker t d1c d2c (flag w 14) (flag w 17) (flag w 18) (flag w 19))
  else if bits w 15 2 = 1#2 then .ok (.nxtstTgl1 t d1c d2c (flag w 14) (flag w 17) (flag w 18) (flag w 19))
  else if bits w 15 2 = 2#2 then .ok (.nxtstTgl2 t d1c d2c (flag w 14) (flag w 17) (flag w 18) (flag w 19))
  else .error .reservedMode

/-- Format N, `OP` = 1: a `NXTST` request (rule R43). -/
def decodeN (w : Word) : Except DecodeError Instr :=
  if bits w 20 10 ≠ 0#10 then .error .reservedBit
  else if flag w 18 = false ∧ flag w 19 = true then .error .stateValueWithoutValid
  else decodeMode w

/-- Format E, `OP` = 2: an `ENCMD` request; `CMD` (bits 13..12) selects the form (rule R44). -/
def decodeE (w : Word) : Except DecodeError Instr :=
  if bits w 14 16 ≠ 0#16 then .error .reservedBit
  else if bits w 0 10 ≠ 0#10 then .error .reservedBit
  else if bits w 12 2 = 0#2 then .ok (.encmdD1P (variantOf w) (channelOf w))
  else if bits w 12 2 = 1#2 then .ok (.encmdD1R (variantOf w) (channelOf w))
  else if bits w 12 2 = 2#2 then .ok (.encmdD2P (variantOf w) (channelOf w))
  else .ok (.encmdD2R (variantOf w) (channelOf w))

/-- Format T, `OP` = 3: a `TEACH` request (rule R45). -/
def decodeT (w : Word) : Except DecodeError Instr :=
  if bits w 11 19 ≠ 0#19 then .error .reservedBit
  else .ok (.teach (telegramOf w) (variantOf w))

/-- The decoder of request words: `OP` (bits 31..30) selects the format; all four values are used (rule R41). A word
it rejects is an invalid request word in the sense of rule R57. -/
def decode (w : Word) : Except DecodeError Instr :=
  if bits w 30 2 = 0#2 then decodeD w
  else if bits w 30 2 = 1#2 then decodeN w
  else if bits w 30 2 = 2#2 then decodeE w
  else decodeT w

/-- A word from its four bytes on a byte-wide path, the byte of bits 7..0 first (rule R30, decision D20). -/
def wordOfBytes (b0 b1 b2 b3 : Byte) : Word := b3 ++ b2 ++ b1 ++ b0

/-- The four bytes of a word on a byte-wide path, the byte of bits 7..0 first (rule R30, decision D20). -/
def bytesOfWord (w : Word) : List Byte := [bits w 0 8, bits w 8 8, bits w 16 8, bits w 24 8]

/-- The decoder on bytes: the first request and the bytes after it. All requests have one length, four bytes
(rule R59). -/
def decodeBytes : List Byte → Except DecodeError (Instr × List Byte)
  | b0 :: b1 :: b2 :: b3 :: rest =>
    match decode (wordOfBytes b0 b1 b2 b3) with
    | .ok i => .ok (i, rest)
    | .error e => .error e
  | _ => .error .truncated

/-- The request word of a row's bits: `nbits` bits of `w`, every bit above them 0. -/
def tableWord (nbits w : Nat) : Word := BitVec.ofNat 32 (w % 2 ^ nbits)

/-- The instruction the decoder reads from a row's bits, numbered as spec/opcode_table.json numbers them. -/
def decodeTableWord (nbits w : Nat) : Option Instr :=
  match decodeBytes (bytesOfWord (tableWord nbits w)) with
  | .ok (i, _) => some i
  | .error _ => none

/-! ## The encoder -/

/-- A field's value at its place in a word: lowest bit at bit `lo`. -/
def place {n : Nat} (v : BitVec n) (lo : Nat) : Word := v.setWidth 32 <<< lo

/-- A boolean field at bit `i`. -/
def placeFlag (v : Bool) (i : Nat) : Word := place (BitVec.ofBool v) i

/-- `NU<<9 | T21<<8 | SB`: a telegram in bits 9..0 (rules R42, R43, R45, R48). -/
def placeTelegram (t : Telegram) : Word := placeFlag t.nu 9 ||| placeFlag t.t21 8 ||| place t.sb 0

/-- `REQ = LAST<<13 | ACT<<12 | CH<<11 | VAR<<10 | NU<<9 | T21<<8 | SB` (rule R42). -/
def encodeD (act : Bool) (t : Telegram) (var : Variant) (ch : Channel) (last : BitVec 3) : Word :=
  place last 13 ||| placeFlag act 12 ||| place ch.bit 11 ||| place var.bit 10 ||| placeTelegram t

/-- `REQ = 0x40000000 | CSB<<19 | CSV<<18 | UD<<17 | MODE<<15 | HSA<<14 | D2C<<12 | D1C<<10 | NU<<9 | T21<<8 | SB`
(rule R43). -/
def encodeN (mode : SwitchMode) (t : Telegram) (d1c d2c : RockerCode) (hsa ud csv csb : Bool) : Word :=
  0x40000000#32 ||| placeFlag csb 19 ||| placeFlag csv 18 ||| placeFlag ud 17 ||| place mode.code 15 |||
    placeFlag hsa 14 ||| place d2c.code 12 ||| place d1c.code 10 ||| placeTelegram t

/-- `REQ = 0x80000000 | CMD<<12 | CH<<11 | VAR<<10` (rule R44). -/
def encodeE (cmd : Command) (var : Variant) (ch : Channel) : Word :=
  0x80000000#32 ||| place cmd.code 12 ||| place ch.bit 11 ||| place var.bit 10

/-- `REQ = 0xC0000000 | VAR<<10 | NU<<9 | T21<<8 | SB` (rule R45). -/
def encodeT (t : Telegram) (var : Variant) : Word :=
  0xC0000000#32 ||| place var.bit 10 ||| placeTelegram t

/-- The request word of a request, one format per operation (rules R42 to R45, R56). -/
def encode : Instr → Word
  | .decevDir t var ch last => encodeD false t var ch last
  | .decevAct t var ch last => encodeD true t var ch last
  | .nxtstRocker t d1c d2c hsa ud csv csb => encodeN .rocker t d1c d2c hsa ud csv csb
  | .nxtstTgl1 t d1c d2c hsa ud csv csb => encodeN .toggleOnDir1 t d1c d2c hsa ud csv csb
  | .nxtstTgl2 t d1c d2c hsa ud csv csb => encodeN .toggleOnDir2 t d1c d2c hsa ud csv csb
  | .encmdD1P var ch => encodeE .dir1Pressed var ch
  | .encmdD1R var ch => encodeE .dir1Released var ch
  | .encmdD2P var ch => encodeE .dir2Pressed var ch
  | .encmdD2R var ch => encodeE .dir2Released var ch
  | .teach t var => encodeT t var

/-! ## The opcode map -/

/-- A row of rule R56: a word selects the form when `word & mask == pattern`. -/
structure OpcodeRow where
  mnemonic : String
  mask : Word
  pattern : Word
deriving DecidableEq, Repr

/-- `word & mask == match` (rule R56). -/
def OpcodeRow.selects (r : OpcodeRow) (w : Word) : Bool := w &&& r.mask == r.pattern

/-- Row `DECEV.DIR` of rule R56. -/
def rowDecevDir : OpcodeRow := ⟨"DECEV.DIR", 0xFFFF1000#32, 0x00000000#32⟩

/-- Row `DECEV.ACT` of rule R56. -/
def rowDecevAct : OpcodeRow := ⟨"DECEV.ACT", 0xFFFF1000#32, 0x00001000#32⟩

/-- Row `NXTST.ROCKER` of rule R56. -/
def rowNxtstRocker : OpcodeRow := ⟨"NXTST.ROCKER", 0xFFF18000#32, 0x40000000#32⟩

/-- Row `NXTST.TGL1` of rule R56. -/
def rowNxtstTgl1 : OpcodeRow := ⟨"NXTST.TGL1", 0xFFF18000#32, 0x40008000#32⟩

/-- Row `NXTST.TGL2` of rule R56. -/
def rowNxtstTgl2 : OpcodeRow := ⟨"NXTST.TGL2", 0xFFF18000#32, 0x40010000#32⟩

/-- Row `ENCMD.D1P` of rule R56. -/
def rowEncmdD1P : OpcodeRow := ⟨"ENCMD.D1P", 0xFFFFF3FF#32, 0x80000000#32⟩

/-- Row `ENCMD.D1R` of rule R56. -/
def rowEncmdD1R : OpcodeRow := ⟨"ENCMD.D1R", 0xFFFFF3FF#32, 0x80001000#32⟩

/-- Row `ENCMD.D2P` of rule R56. -/
def rowEncmdD2P : OpcodeRow := ⟨"ENCMD.D2P", 0xFFFFF3FF#32, 0x80002000#32⟩

/-- Row `ENCMD.D2R` of rule R56. -/
def rowEncmdD2R : OpcodeRow := ⟨"ENCMD.D2R", 0xFFFFF3FF#32, 0x80003000#32⟩

/-- Row `TEACH` of rule R56. -/
def rowTeach : OpcodeRow := ⟨"TEACH", 0xFFFFF800#32, 0xC0000000#32⟩

/-- The row of rule R56 that each form stands in. -/
def Instr.row : Instr → OpcodeRow
  | .decevDir .. => rowDecevDir
  | .decevAct .. => rowDecevAct
  | .nxtstRocker .. => rowNxtstRocker
  | .nxtstTgl1 .. => rowNxtstTgl1
  | .nxtstTgl2 .. => rowNxtstTgl2
  | .encmdD1P .. => rowEncmdD1P
  | .encmdD1R .. => rowEncmdD1R
  | .encmdD2P .. => rowEncmdD2P
  | .encmdD2R .. => rowEncmdD2R
  | .teach .. => rowTeach

/-- The ten rows of the opcode map, in the order of rule R56. -/
def opcodeMap : List OpcodeRow :=
  [rowDecevDir, rowDecevAct, rowNxtstRocker, rowNxtstTgl1, rowNxtstTgl2,
   rowEncmdD1P, rowEncmdD1R, rowEncmdD2P, rowEncmdD2R, rowTeach]

end Sys2Proof
end

