-- ==== Sys2Proof/Machine/State.lean ====
section
/-!
DEFINITION. The machine's state as plain data: the core's two ports, the caller's context store (`CFG[i]`, `CS[i]`,
`LE[i]`), the caller's actions still to be handled and what was passed on to the caller's framework; the reasons a step
can stop; and the state after reset. The core itself holds nothing (rules R10, R13, R14).
-/

namespace Sys2Proof.Machine

/-- `CFG`, the configuration record of one channel (rule R15): seven bits in six fields. `MODE` = 3 is never written
and has no value here. -/
structure Cfg where
  /-- `CFG.CH`, the source's `channel`. -/
  ch : Channel
  /-- `CFG.VAR`, the source's `orientation`. -/
  var : Variant
  /-- `CFG.MODE`, the source's `mode`. -/
  mode : SwitchMode
  /-- `CFG.HSA`, the source's `handleSecondaryAction`. -/
  hsa : Bool
  /-- `CFG.ACT`, the source's `isActionChannel`. -/
  act : Bool
  /-- `CFG.UD`, the source's `wantUpDownSemantics` (decision D16). -/
  ud : Bool
deriving DecidableEq, Repr

/-- What the caller holds for one channel identifier (rules R15 to R17, R28). -/
structure Context where
  /-- The caller has written `CFG` and created the context (rules R21, R187). -/
  configured : Bool
  /-- `CFG[i]`. -/
  cfg : Cfg
  /-- `CS[i]`: `none` is the source's "undefined", `some true` On (or Up), `some false` Off (or Down) (rule R16). -/
  cs : Option Bool
  /-- `LE[i]`, a 3-bit event code; 0 stands for none and for NoEvent (rule R17). -/
  le : BitVec 3
deriving DecidableEq, Repr

/-- A configuration record of zeros: what the `cfg` field holds before the caller writes it. DESIGN CHOICE (assumption
log 1): rule R21 gives `CFG` no reset value; no action reads the field before it is written. -/
def Cfg.zero : Cfg :=
  { ch := .a, var := .standard, mode := .rocker, hsa := false, act := false, ud := false }

/-- The context of a channel after reset: `CS` = None, `LE` = 0 (rule R20), `CFG` not written yet (rule R21). -/
def Context.reset : Context := { configured := false, cfg := Cfg.zero, cs := none, le := 0#3 }

/-- The context store (rule R28), as the pairs of a channel identifier and its context: identifiers strictly rising, no
entry equal to the reset context, which is what an unlisted identifier reads as. -/
abbrev Store := List (Nat × Context)

/-- What the caller does next. The caller's actions are the machine's inputs. -/
inductive CallerAction where
  /-- Present a request word to the core (rules R12, R41, R187). -/
  | request (w : Word)
  /-- `DIRS var ch`: look up the direction table (rules R62, R80). -/
  | dirs (var : Variant) (ch : Channel)
  /-- Write `CFG[i]` and create the context of channel `i` (rules R187, R188). -/
  | configure (i : Nat) (cfg : Cfg)
  /-- `RECV i, SB, T21, NU`: handle one received telegram for channel `i` (rule R150). -/
  | recv (i : Nat) (t : Telegram)
  /-- Two handlings for channel `i` that overlap, both reading the context before either writes it: what rule R156
  forbids the caller, with the outcome of rule R189. -/
  | recvOverlap (i : Nat) (t1 t2 : Telegram)
  /-- `SEND i, cmd`: build one outbound telegram for channel `i` (rule R155). -/
  | send (i : Nat) (cmd : Command)
deriving DecidableEq, Repr

/-- What the caller passes on to its framework, or gets back for its own use. -/
inductive Emission where
  /-- The event of a telegram handled for channel `i`, passed on when it is not NoEvent (rule R154). -/
  | event (i : Nat) (ev : Event)
  /-- The new state of channel `i` with `KIND`: false reads On/Off, true reads Up/Down (rules R119, R154). -/
  | newState (i : Nat) (kind value : Bool)
  /-- The outbound telegram of a `SEND` for channel `i` (rule R155). -/
  | telegram (i : Nat) (t : Telegram)
  /-- The pair (`dir1Code`, `dir2Code`) of a `DIRS` (rule R80). -/
  | codes (d1 d2 : RockerCode)
deriving DecidableEq, Repr

/-- The state of the core's ports and of its caller. -/
structure State where
  /-- `REQ`, the request word at the core's input port (rule R41, decision D1). -/
  req : Word
  /-- `RSP`, the response word at the core's output port (rule R41, decision D1). -/
  rsp : Word
  /-- The caller's context store: `CFG[i]`, `CS[i]`, `LE[i]` (rule R28). -/
  store : Store
  /-- The model's own field: the caller's actions still to be handled, the next first (assumption log 4). -/
  inbox : List CallerAction
  /-- The model's own field: what was passed on, the oldest first (assumption log 5). -/
  emitted : List Emission
deriving DecidableEq, Repr

/-- The state right after reset: the core has none (rule R185); the store lists nothing, so that every channel has
`CS` = None, `LE` = 0 and an unwritten `CFG` (rules R20, R21, R186); the ports hold the word 0 and the response to it
(DESIGN CHOICE, assumption log 3); nothing is left to handle and nothing was passed on. -/
def State.reset : State := { req := 0#32, rsp := 0#32, store := [], inbox := [], emitted := [] }

/-- Why a step stops with a fault. The core never faults (rule R165); the one reason is the caller's. -/
inductive Fault where
  /-- A `RECV`, `SEND` or configuration names a channel identifier outside `0 .. NCH-1`, for which no context exists
  (rule R28). Raised by the caller's channel accesses. Safe: the spec gives such an access no meaning. -/
  | noSuchChannel (i : Nat)
deriving DecidableEq, Repr

/-- Why a step is refused. -/
inductive Refusal where
  /-- An instruction whose meaning is not written yet. No arm of `exec` raises it. Safe. -/
  | notModelled (mnemonic : String)
  /-- A `RECV` or `SEND` for a channel whose `CFG` the caller has not written: not defined, a model must not handle it
  (rules R21, R187; 93_implementation_defined.md U12). Safe: the spec gives it no effect. -/
  | channelNotConfigured (i : Nat)
deriving DecidableEq, Repr

end Sys2Proof.Machine
end

