-- ==== Sys2Proof/Machine/Operands.lean ====
section
/-!
DEFINITION. The Bit Codec (40_bit_codec.md): the sub-fields of the status byte, the comparison of a code field with a
direction code, and the status byte of a press; and the optional state operand of `NXTST` (rule R52). These are the
operand forms: every other operand is a field of the request word taken as it stands (rule R55).
-/

namespace Sys2Proof.Machine

/-- `hasBit(b, n)`: bit `n` of a byte, `((b >> n) & 1) == 1`; `n` is three bits (rule R75, decision D24). -/
def hasBit (b : Byte) (n : BitVec 3) : Bool := (b >>> n.toNat) &&& 1#8 == 1#8

/-- `R1(b)`, the source's `highNibble`: the primary rocker code field, `b >> 5` (rule R70, conflict C2). -/
def primaryCode (b : Byte) : BitVec 3 := (b >>> 5).setWidth 3

/-- `R2(b)`, the source's `secondaryRockerCode`: `(b & 0xF) >> 1` (rule R71). -/
def secondaryCode (b : Byte) : BitVec 3 := ((b &&& 0xF#8) >>> 1).setWidth 3

/-- `P1(b)`, the source's `primaryPressed`: bit 4 (rule R72). -/
def primaryPressed (b : Byte) : Bool := hasBit b 4#3

/-- `P2(b)`, the source's `secondaryPressed`: bit 0 (rule R73). -/
def secondaryPressed (b : Byte) : Bool := hasBit b 0#3

/-- `RSV(b)`, the reserved bit: bit 7 (rule R74). -/
def reservedBit (b : Byte) : Bool := hasBit b 7#3

/-- A 3-bit code field equals a direction code, the code zero-extended to three bits; a field of 4 to 7 equals none
(rule R76). -/
def codeIs (field : BitVec 3) (c : RockerCode) : Bool := field == c.code.setWidth 3

/-- `compose(c) = (zext_8(c) << 5) | 0x10`: the status byte of a single primary press of a code (rule R78). -/
def compose (c : RockerCode) : Byte := (c.code.setWidth 8 <<< 5) ||| 0x10#8

/-- `currentState` from its valid bit and its value bit (rule R52). -/
def stateOperand (csv csb : Bool) : Option Bool := if csv then some csb else none

/-- `CSV` of an optional state (rule R52). -/
def stateValidBit (cs : Option Bool) : Bool := cs.isSome

/-- `CSB` of an optional state: 0 when there is none (rule R52). -/
def stateValueBit (cs : Option Bool) : Bool := cs.getD false

end Sys2Proof.Machine
end

