-- ==== Sys2Proof/Machine/DirectionTable.lean ====
section
/-!
DEFINITION. The Direction Table (41_direction_table.md) and its packed image, the direction ROM (rule R26): four words
of six bits, read-only, the only memory of the block. It is a constant and no part of the state (rules R26, R35, R81).
-/

namespace Sys2Proof.Machine

/-- The content of the direction ROM at addresses 0 to 3 (rule R26). -/
def romImage : Vector (BitVec 6) 4 := #v[0x08#6, 0x1A#6, 0x01#6, 0x13#6]

/-- `ROM[a]`: every one of the four addresses is populated, no read can miss (rules R26, R29). -/
def romRead (a : BitVec 2) : BitVec 6 := romImage[a.toNat]'a.isLt

/-- The ROM address of a variant and a channel: `{VAR, CH}` (rule R26). -/
def romAddress (var : Variant) (ch : Channel) : BitVec 2 := var.bit ++ ch.bit

/-- The rocker code a 3-bit ROM field carries. A RockerCode is one of four values and the field's top bit is 0 in every
word of the ROM (rules R26, R54), so the low two bits name it. -/
def romCode (field : BitVec 3) : RockerCode := RockerCode.ofCode (field.setWidth 2)

/-- `directionsFor(variant, channel)`, pseudo-operation `DIRS`: `w = ROM[{variant, channel}]; dir1Code = w[5:3];
dir2Code = w[2:0]` (rule R80). -/
def directionsFor (var : Variant) (ch : Channel) : RockerCode × RockerCode :=
  let w := romRead (romAddress var ch)
  (romCode (w.extractLsb' 3 3), romCode (w.extractLsb' 0 3))

/-- `dir1Code` of a variant and a channel (rule R80). -/
def dir1Code (var : Variant) (ch : Channel) : RockerCode := (directionsFor var ch).1

/-- `dir2Code` of a variant and a channel (rule R80). -/
def dir2Code (var : Variant) (ch : Channel) : RockerCode := (directionsFor var ch).2

/-- `directionOf(variant, channel, code)`: the table read the other way, on a 3-bit code field (rule R84). -/
def directionOf (var : Variant) (ch : Channel) (code : BitVec 3) : Direction :=
  if codeIs code (dir1Code var ch) then .dir1
  else if codeIs code (dir2Code var ch) then .dir2
  else .none

end Sys2Proof.Machine
end

