-- ==== Sys2Proof/Config.lean ====
section
/-!
DEFINITION. What an implementation fixes: the number of channel contexts `NCH` the caller holds, which the spec leaves
open as the parameter `NCH >= 1` (rule R28, decision D26). Nothing else is left to the implementation.
-/

namespace Sys2Proof

/-- How many channel contexts the caller holds beyond the first: a free value without a body, so that no proof can
rest on a particular `NCH` (assumption log 2). -/
opaque Config.extraChannels : Nat

/-- `NCH`, the number of channel contexts: `NCH >= 1`, contexts indexed `0 .. NCH-1` (rule R28, decision D26). -/
def Config.nch : Nat := Config.extraChannels + 1

end Sys2Proof
end

