-- ==== Sys2Proof/Machine/Ops.lean ====
section
/-!
DEFINITION. The named operations over the machine's state: the core's two ports, the answer to an invalid request word
(rule R57), the context store with its canonical form (rule R28) and the caller's output. There is no operation that
takes an exception or returns from one: the block raises none and has no trap entry (rules R165, R170).
-/

namespace Sys2Proof.Machine

/-! ## The core's ports -/

/-- The response to an invalid request word: `INV` = 1, every other bit 0 (rule R57). -/
def invResponse : Word := 0x80000000#32

/-- Drive the input port `REQ` with a request word (rule R41). -/
def State.drive (s : State) (w : Word) : State := { s with req := w }

/-- The output port `RSP` shows a response word: the only effect an operation of the core has (rules R10, R41). -/
def State.respond (s : State) (r : Word) : State := { s with rsp := r }

/-- The response to a request whose extra validity condition (rule R56) holds or fails: the operation's own response, or
that of an invalid word (rule R57; for a term, DEDUCED, assumption log 8). -/
def checked (valid : Bool) (r : Word) : Word := if valid then r else invResponse

/-- The request the core reads from its input port (rules R41, R55). -/
def State.fetch (s : State) : Except DecodeError Instr := decode s.req

/-- What an invalid request word does: the `INV` response, and nothing else happens (rules R57, R167). -/
def invalidRequest (s : State) : Host.Outcome State Fault Refusal := .next (s.respond invResponse)

/-- The machine at rest with one request word at its input port: no action of the caller is waiting. -/
def State.present (s : State) (w : Word) : State := { s with req := w, inbox := [] }

/-! ## The context store -/

/-- The context of a channel identifier: the listed one, or the reset context where none is listed (rule R20). -/
def Store.read : Store → Nat → Context
  | [], _ => Context.reset
  | (j, c) :: rest, i => if i = j then c else Store.read rest i

/-- Put a context in front of the entries above its identifier, unless it is the one an unlisted identifier reads. -/
def Store.cons (i : Nat) (c : Context) (rest : Store) : Store := if c = Context.reset then rest else (i, c) :: rest

/-- Write the context of one channel identifier, keeping the canonical form. -/
def Store.write : Store → Nat → Context → Store
  | [], i, c => Store.cons i c []
  | (j, d) :: rest, i, c =>
    if i < j then Store.cons i c ((j, d) :: rest)
    else if i = j then Store.cons i c rest
    else (j, d) :: Store.write rest i c

/-- The canonical form: identifiers strictly rising, each below `NCH`, and no entry equal to the reset context. -/
abbrev Store.wf (st : Store) : Prop :=
  st.Pairwise (fun x y => x.1 < y.1) ∧ ∀ x ∈ st, x.1 < Config.nch ∧ x.2 ≠ Context.reset

/-- The caller's read of the context of channel `i` (rule R28). -/
def State.context (s : State) (i : Nat) : Context := Store.read s.store i

/-- The caller's write of the context of channel `i` (rule R28). -/
def State.setContext (s : State) (i : Nat) (c : Context) : State := { s with store := Store.write s.store i c }

/-- Pass on to the caller's framework, in order (rule R154). -/
def State.emit (s : State) (es : List Emission) : State := { s with emitted := s.emitted ++ es }

/-- Reach channel `i` of the store: identifiers are `0 .. NCH-1` (rule R28). The stop for any other is the model's
(DESIGN CHOICE, assumption log 10). -/
def State.onChannel (s : State) (i : Nat) (k : Context → Host.Outcome State Fault Refusal) :
    Host.Outcome State Fault Refusal :=
  if i < Config.nch then k (s.context i) else .fault (.noSuchChannel i)

/-- Reach a configured channel: `RECV` and `SEND` need `CFG[i]` written (rules R21, R187; U12 says to refuse; assumption
log 10). -/
def State.onConfigured (s : State) (i : Nat) (k : Context → Host.Outcome State Fault Refusal) :
    Host.Outcome State Fault Refusal :=
  s.onChannel i fun c => if c.configured then k c else .refused (.channelNotConfigured i)

end Sys2Proof.Machine
end

