-- ==== Sys2Proof/Machine/Responses.lean ====
section
/-!
DEFINITION. The response words of the four operations, packed as rules R46 to R49 lay them out; every bit a format does
not list is 0, and bit 31, `INV`, is 0 in every response to a valid request. A field of a response is written with the
same `place` as a field of a request.
-/

namespace Sys2Proof.Machine

/-- `DA` of an event: the direction of channel A in an Action event, 0 in every other (rule R46). -/
def directionA : Event → Direction
  | .action da _ => da
  | _ => .none

/-- `DB` of an event: the direction of channel B in an Action event, 0 in every other (rule R46). -/
def directionB : Event → Direction
  | .action _ db => db
  | _ => .none

/-- `RSP = DB<<5 | DA<<3 | EV`: the response of `DECEV` (rule R46). -/
def eventResponse (ev : Event) : Word :=
  place (directionB ev).code 5 ||| place (directionA ev).code 3 ||| place ev.code 0

/-- `RSP = KIND<<2 | NSB<<1 | NSV`: the response of `NXTST`; `KIND` copies `UD` when there is a new state, and all of
it is 0 when there is none (rules R47, R119). -/
def stateResponse (ud : Bool) : Option Bool → Word
  | some v => placeFlag ud 2 ||| placeFlag v 1 ||| placeFlag true 0
  | none => 0#32

/-- `RSP = NU<<9 | T21<<8 | SB`: the response of `ENCMD`, an outbound telegram (rule R48). -/
def telegramResponse (t : Telegram) : Word := placeTelegram t

/-- `RSP = OK`: the response of `TEACH` (rule R49). -/
def teachResponse (ok : Bool) : Word := placeFlag ok 0

end Sys2Proof.Machine
end

