-- ==== Sys2Proof/Machine/CommandEncoder.lean ====
section
/-!
DEFINITION. The Command Encoder (44_command_encoder.md): operation `ENCMD` in its four forms, and the source's function
`encodeCommand` that selects between them.
-/

namespace Sys2Proof.Machine

/-- The telegram of a press of code `c`: `compose(c)` with `T21` = 1, `NU` = 1 (rules R78, R132, R133). -/
def pressOutbound (c : RockerCode) : Telegram := { sb := compose c, t21 := true, nu := true }

/-- The generic release telegram: `SB` = `0x00`, `T21` = 1, `NU` = 0 (rule R131). -/
def releaseOutbound : Telegram := { sb := 0x00#8, t21 := true, nu := false }

/-- `ENCMD.D1P` (rule R132). -/
def encmdD1P (var : Variant) (ch : Channel) : Telegram := pressOutbound (dir1Code var ch)

/-- `ENCMD.D1R` (rule R131): the operands are carried and not read. -/
def encmdD1R (_var : Variant) (_ch : Channel) : Telegram := releaseOutbound

/-- `ENCMD.D2P` (rule R133). -/
def encmdD2P (var : Variant) (ch : Channel) : Telegram := pressOutbound (dir2Code var ch)

/-- `ENCMD.D2R` (rule R131): the operands are carried and not read. -/
def encmdD2R (_var : Variant) (_ch : Channel) : Telegram := releaseOutbound

/-- The source's `encodeCommand`: the command selects the form (rules R41, R56, R130). -/
def encodeCommand (cmd : Command) (var : Variant) (ch : Channel) : Telegram :=
  match cmd with
  | .dir1Pressed => encmdD1P var ch
  | .dir1Released => encmdD1R var ch
  | .dir2Pressed => encmdD2P var ch
  | .dir2Released => encmdD2R var ch

/-- The response word of an `ENCMD.D1P` request (rule R48). -/
def encmdD1PResponse (var : Variant) (ch : Channel) : Word := telegramResponse (encmdD1P var ch)

/-- The response word of an `ENCMD.D1R` request (rule R48). -/
def encmdD1RResponse (var : Variant) (ch : Channel) : Word := telegramResponse (encmdD1R var ch)

/-- The response word of an `ENCMD.D2P` request (rule R48). -/
def encmdD2PResponse (var : Variant) (ch : Channel) : Word := telegramResponse (encmdD2P var ch)

/-- The response word of an `ENCMD.D2R` request (rule R48). -/
def encmdD2RResponse (var : Variant) (ch : Channel) : Word := telegramResponse (encmdD2R var ch)

/-- The meaning of `ENCMD.D1P` (rule R132): the response, and nothing else changes. -/
def execEncmdD1P (var : Variant) (ch : Channel) (s : State) : Host.Outcome State Fault Refusal :=
  .next (s.respond (encmdD1PResponse var ch))

/-- The meaning of `ENCMD.D1R` (rule R131): the response, and nothing else changes. -/
def execEncmdD1R (var : Variant) (ch : Channel) (s : State) : Host.Outcome State Fault Refusal :=
  .next (s.respond (encmdD1RResponse var ch))

/-- The meaning of `ENCMD.D2P` (rule R133): the response, and nothing else changes. -/
def execEncmdD2P (var : Variant) (ch : Channel) (s : State) : Host.Outcome State Fault Refusal :=
  .next (s.respond (encmdD2PResponse var ch))

/-- The meaning of `ENCMD.D2R` (rule R131): the response, and nothing else changes. -/
def execEncmdD2R (var : Variant) (ch : Channel) (s : State) : Host.Outcome State Fault Refusal :=
  .next (s.respond (encmdD2RResponse var ch))

end Sys2Proof.Machine
end

