-- ==== Sys2Proof/Machine/Flags.lean ====
section
/-!
DEFINITION. The 1-bit conditions the operations compute from a telegram. The block has no status flags and no condition
codes, and nothing computed here is kept (rule R13): the telegram classes of rule R100, the dual press of rule R95, the
gate of rule R111 and the slot matches of rule R112.
-/

namespace Sys2Proof.Machine

/-- A press telegram: `T21` = 1 and `NU` = 1 (rules R95, R100). -/
def pressTelegram (t : Telegram) : Bool := t.t21 && t.nu

/-- A release telegram: `T21` = 1 and `NU` = 0 (rules R97, R98, R100). -/
def releaseTelegram (t : Telegram) : Bool := t.t21 && !t.nu

/-- A dual press: both press flags set, whatever the codes (rule R95). -/
def dualPress (b : Byte) : Bool := primaryPressed b && secondaryPressed b

/-- The gate of `NXTST`: None without looking further on a reserved bit, `T21` = 0 or `NU` = 0 (rule R111, decision
D8). -/
def gateShut (t : Telegram) : Bool := reservedBit t.sb || !t.t21 || !t.nu

/-- The primary slot is a press of code `c`: `pm1`, `pm2` of rule R112. -/
def primaryMatch (b : Byte) (c : RockerCode) : Bool := primaryPressed b && codeIs (primaryCode b) c

/-- The secondary slot is handled and is a press of code `c`: `sm1`, `sm2` of rule R112 (decision D11). -/
def secondaryMatch (b : Byte) (hsa : Bool) (c : RockerCode) : Bool :=
  hsa && secondaryPressed b && codeIs (secondaryCode b) c

/-- A press of code `c` in the primary slot, or in the secondary slot where it is handled: `press1`, `press2` of
rule R121. -/
def pressOf (b : Byte) (hsa : Bool) (c : RockerCode) : Bool := primaryMatch b c || secondaryMatch b hsa c

end Sys2Proof.Machine
end

