-- ==== Sys2Proof/Machine/EventDecoder.lean ====
section
/-!
DEFINITION. The Event Decoder (42_event_decoder.md): operation `DECEV` in its two forms, and the source's function
`decodeEvent` that selects between them.
-/

namespace Sys2Proof.Machine

/-- A `…Pressed` event iff the primary press flag is set, else a `…Released` event, of direction 1 (rule R96). -/
def dir1Event (b : Byte) : Event := if primaryPressed b then .dir1Pressed else .dir1Released

/-- As `dir1Event`, of direction 2 (rule R96). -/
def dir2Event (b : Byte) : Event := if primaryPressed b then .dir2Pressed else .dir2Released

/-- Step 2 of the directional form, a press telegram: the dual-press test before the code match (rules R95, R100). -/
def pressEvent (b : Byte) (var : Variant) (ch : Channel) : Event :=
  if dualPress b then .noEvent
  else if codeIs (primaryCode b) (dir1Code var ch) then dir1Event b
  else if codeIs (primaryCode b) (dir2Code var ch) then dir2Event b
  else .noEvent

/-- Step 3 of the directional form, a release telegram: `LAST` alone decides (rule R98). -/
def releaseEvent (last : BitVec 3) : Event :=
  if last = Event.dir1Pressed.code then .dir1Released
  else if last = Event.dir2Pressed.code then .dir2Released
  else .noEvent

/-- `DECEV.DIR` (rule R91), its steps in the order of rule R100. -/
def decevDir (t : Telegram) (var : Variant) (ch : Channel) (last : BitVec 3) : Event :=
  if reservedBit t.sb then .noEvent
  else if pressTelegram t then pressEvent t.sb var ch
  else if releaseTelegram t then releaseEvent last
  else .noEvent

/-- `dirA(b)`: channel A never takes part in the secondary slot, and a press flag is needed (rule R93, decision D9). -/
def dirA (b : Byte) : Direction :=
  if codeIs (primaryCode b) .a0 && primaryPressed b then .dir1
  else if codeIs (primaryCode b) .ai && primaryPressed b then .dir2
  else .none

/-- `dirB(b)`: each slot counts with its own press flag, and Dir1 is tested first (rule R94, decisions D9, D10). -/
def dirB (b : Byte) : Direction :=
  if (codeIs (primaryCode b) .b0 && primaryPressed b) || (codeIs (secondaryCode b) .b0 && secondaryPressed b) then .dir1
  else if (codeIs (primaryCode b) .bi && primaryPressed b) || (codeIs (secondaryCode b) .bi && secondaryPressed b) then
    .dir2
  else .none

/-- `DECEV.ACT` (rule R92): neither the variant, nor the channel, nor `LAST` is read. -/
def decevAct (t : Telegram) : Event :=
  if reservedBit t.sb then .noEvent
  else if pressTelegram t then .action (dirA t.sb) (dirB t.sb)
  else if releaseTelegram t then .released
  else .noEvent

/-- The source's `decodeEvent`: `isActionChannel` selects the form (rules R41, R56). -/
def decodeEvent (t : Telegram) (var : Variant) (ch : Channel) (isActionChannel : Bool) (last : BitVec 3) : Event :=
  if isActionChannel then decevAct t else decevDir t var ch last

/-- The response word of a `DECEV.DIR` request (rules R46, R57). -/
def decevDirResponse (t : Telegram) (var : Variant) (ch : Channel) (last : BitVec 3) : Word :=
  checked (lastValid last) (eventResponse (decevDir t var ch last))

/-- The response word of a `DECEV.ACT` request (rules R46, R57). `VAR` and `CH` are carried and not read. -/
def decevActResponse (t : Telegram) (_var : Variant) (_ch : Channel) (last : BitVec 3) : Word :=
  checked (lastValid last) (eventResponse (decevAct t))

/-- The meaning of `DECEV.DIR` (rule R91): the response, and nothing else changes. -/
def execDecevDir (t : Telegram) (var : Variant) (ch : Channel) (last : BitVec 3) (s : State) :
    Host.Outcome State Fault Refusal :=
  .next (s.respond (decevDirResponse t var ch last))

/-- The meaning of `DECEV.ACT` (rule R92): the response, and nothing else changes. -/
def execDecevAct (t : Telegram) (var : Variant) (ch : Channel) (last : BitVec 3) (s : State) :
    Host.Outcome State Fault Refusal :=
  .next (s.respond (decevActResponse t var ch last))

end Sys2Proof.Machine
end

