-- ==== Sys2Proof/Machine/SwitchMode.lean ====
section
/-!
DEFINITION. The Switch-Mode State Machine (43_switch_mode_fsm.md): operation `NXTST` in its three forms, and the
source's function `nextState` that selects between them. `none` is "no change" (rule R117).
-/

namespace Sys2Proof.Machine

/-- A toggle: the complement of the current value, an undefined state counting as Off (rules R115, R118). -/
def toggled (cs : Option Bool) : Bool := !(cs.getD false)

/-- `NXTST.ROCKER` (rule R114): primary before secondary, Dir1 before Dir2 (decision D12). -/
def nextRocker (t : Telegram) (d1c d2c : RockerCode) (hsa : Bool) : Option Bool :=
  if gateShut t then none
  else if primaryMatch t.sb d1c then some true
  else if primaryMatch t.sb d2c then some false
  else if secondaryMatch t.sb hsa d1c then some true
  else if secondaryMatch t.sb hsa d2c then some false
  else none

/-- `NXTST.TGL1` (rule R115): a press of `dir1Code` flips the state, once (decision D13). -/
def nextTgl1 (t : Telegram) (d1c : RockerCode) (hsa : Bool) (cs : Option Bool) : Option Bool :=
  if gateShut t then none
  else if pressOf t.sb hsa d1c then some (toggled cs)
  else none

/-- `NXTST.TGL2` (rule R116): a press of `dir2Code` flips the state, once (decision D13). -/
def nextTgl2 (t : Telegram) (d2c : RockerCode) (hsa : Bool) (cs : Option Bool) : Option Bool :=
  if gateShut t then none
  else if pressOf t.sb hsa d2c then some (toggled cs)
  else none

/-- The source's `nextState`, with the telegram (conflict C9): `mode` selects the form (rules R41, R56, R110).
`wantUpDownSemantics` does not enter the value (rule R119). -/
def nextState (t : Telegram) (d1c d2c : RockerCode) (hsa : Bool) (mode : SwitchMode) (cs : Option Bool) :
    Option Bool :=
  match mode with
  | .rocker => nextRocker t d1c d2c hsa
  | .toggleOnDir1 => nextTgl1 t d1c hsa cs
  | .toggleOnDir2 => nextTgl2 t d2c hsa cs

/-- The response word of a `NXTST.ROCKER` request (rules R47, R57). -/
def nxtstRockerResponse (t : Telegram) (d1c d2c : RockerCode) (hsa ud csv csb : Bool) : Word :=
  checked (stateValid csv csb) (stateResponse ud (nextRocker t d1c d2c hsa))

/-- The response word of a `NXTST.TGL1` request (rules R47, R57). `D2C` is carried and not read. -/
def nxtstTgl1Response (t : Telegram) (d1c _d2c : RockerCode) (hsa ud csv csb : Bool) : Word :=
  checked (stateValid csv csb) (stateResponse ud (nextTgl1 t d1c hsa (stateOperand csv csb)))

/-- The response word of a `NXTST.TGL2` request (rules R47, R57). `D1C` is carried and not read. -/
def nxtstTgl2Response (t : Telegram) (_d1c d2c : RockerCode) (hsa ud csv csb : Bool) : Word :=
  checked (stateValid csv csb) (stateResponse ud (nextTgl2 t d2c hsa (stateOperand csv csb)))

/-- The meaning of `NXTST.ROCKER` (rule R114): the response, and nothing else changes. -/
def execNxtstRocker (t : Telegram) (d1c d2c : RockerCode) (hsa ud csv csb : Bool) (s : State) :
    Host.Outcome State Fault Refusal :=
  .next (s.respond (nxtstRockerResponse t d1c d2c hsa ud csv csb))

/-- The meaning of `NXTST.TGL1` (rule R115): the response, and nothing else changes. -/
def execNxtstTgl1 (t : Telegram) (d1c d2c : RockerCode) (hsa ud csv csb : Bool) (s : State) :
    Host.Outcome State Fault Refusal :=
  .next (s.respond (nxtstTgl1Response t d1c d2c hsa ud csv csb))

/-- The meaning of `NXTST.TGL2` (rule R116): the response, and nothing else changes. -/
def execNxtstTgl2 (t : Telegram) (d1c d2c : RockerCode) (hsa ud csv csb : Bool) (s : State) :
    Host.Outcome State Fault Refusal :=
  .next (s.respond (nxtstTgl2Response t d1c d2c hsa ud csv csb))

end Sys2Proof.Machine
end

