-- ==== Sys2Proof/Machine/TeachIn.lean ====
section
/-!
DEFINITION. The Teach-in Validator (45_teach_in.md): operation `TEACH`, a predicate on one telegram and the variant
(rule R140).
-/

namespace Sys2Proof.Machine

/-- The source's `isValidForTeachIn`: `OK = ~VAR & T21 & SB[4] & ~SB[7]`; `NU` is not read (rules R141, R142). -/
def isValidForTeachIn (t : Telegram) (var : Variant) : Bool :=
  match var with
  | .inverted => false
  | .standard => t.t21 && primaryPressed t.sb && !reservedBit t.sb

/-- The response word of a `TEACH` request (rule R49). -/
def teachInResponse (t : Telegram) (var : Variant) : Word := teachResponse (isValidForTeachIn t var)

/-- The meaning of `TEACH` (rule R141): the response, and nothing else changes. -/
def execTeach (t : Telegram) (var : Variant) (s : State) : Host.Outcome State Fault Refusal :=
  .next (s.respond (teachInResponse t var))

end Sys2Proof.Machine
end

