-- ==== Sys2Proof/Machine/Dispatch.lean ====
section
/-! DEFINITION. The dispatch of requests to their meanings, one arm per constructor of `Instr`. -/

namespace Sys2Proof.Machine

def exec (i : Instr) (s : State) : Host.Outcome State Fault Refusal :=
  match i with
  | .decevDir t var ch last => Sys2Proof.Machine.execDecevDir t var ch last s
  | .decevAct t var ch last => Sys2Proof.Machine.execDecevAct t var ch last s
  | .nxtstRocker t d1c d2c hsa ud csv csb => Sys2Proof.Machine.execNxtstRocker t d1c d2c hsa ud csv csb s
  | .nxtstTgl1 t d1c d2c hsa ud csv csb => Sys2Proof.Machine.execNxtstTgl1 t d1c d2c hsa ud csv csb s
  | .nxtstTgl2 t d1c d2c hsa ud csv csb => Sys2Proof.Machine.execNxtstTgl2 t d1c d2c hsa ud csv csb s
  | .encmdD1P var ch => Sys2Proof.Machine.execEncmdD1P var ch s
  | .encmdD1R var ch => Sys2Proof.Machine.execEncmdD1R var ch s
  | .encmdD2P var ch => Sys2Proof.Machine.execEncmdD2P var ch s
  | .encmdD2R var ch => Sys2Proof.Machine.execEncmdD2R var ch s
  | .teach t var => Sys2Proof.Machine.execTeach t var s

end Sys2Proof.Machine
end

