-- ==== Sys2Proof/Machine/Block.lean ====
section
/-!
DEFINITION. The core as the one combinational function `RSP = F(REQ)` of decision D1 (rules R10, R41, R185, R195): the
response word of each request, and of each request word.
-/

namespace Sys2Proof.Machine

/-- The response word of a request (rules R46 to R49, R57). -/
def responseOf : Instr → Word
  | .decevDir t var ch last => decevDirResponse t var ch last
  | .decevAct t var ch last => decevActResponse t var ch last
  | .nxtstRocker t d1c d2c hsa ud csv csb => nxtstRockerResponse t d1c d2c hsa ud csv csb
  | .nxtstTgl1 t d1c d2c hsa ud csv csb => nxtstTgl1Response t d1c d2c hsa ud csv csb
  | .nxtstTgl2 t d1c d2c hsa ud csv csb => nxtstTgl2Response t d1c d2c hsa ud csv csb
  | .encmdD1P var ch => encmdD1PResponse var ch
  | .encmdD1R var ch => encmdD1RResponse var ch
  | .encmdD2P var ch => encmdD2PResponse var ch
  | .encmdD2R var ch => encmdD2RResponse var ch
  | .teach t var => teachInResponse t var

/-- `F`: the response word of a request word, `INV` for an invalid one (rules R41, R57). -/
def blockResponse (w : Word) : Word :=
  match decode w with
  | .ok i => responseOf i
  | .error _ => invResponse

end Sys2Proof.Machine
end

