-- ==== Sys2Proof/Machine/Sequencer.lean ====
section
/-!
DEFINITION. The channel sequencer (46_channel_sequencer.md) and the setting up of a channel (rules R187, R188): the
caller's side of the system. `RECV` and `SEND` use the four operations of the core on a channel's context; `DIRS` reads
the direction table. None of them drives the ports of `State` (assumption log 6).
-/

namespace Sys2Proof.Machine

/-! ## The requests the caller assembles -/

/-- The `DECEV` request of a `RECV`: `VAR`, `CH`, `ACT` from `CFG[i]`, `LAST` from `LE[i]` (rules R150, R151). -/
def recvDecev (c : Context) (t : Telegram) : Instr :=
  if c.cfg.act then .decevAct t c.cfg.var c.cfg.ch c.le else .decevDir t c.cfg.var c.cfg.ch c.le

/-- The `NXTST` request of a `RECV`: `D1C`, `D2C` from the direction table, `HSA`, `MODE`, `UD` from `CFG[i]`,
`currentState` from `CS[i]` (rules R150, R151). -/
def recvNxtst (c : Context) (t : Telegram) : Instr :=
  let d1 := dir1Code c.cfg.var c.cfg.ch
  let d2 := dir2Code c.cfg.var c.cfg.ch
  match c.cfg.mode with
  | .rocker => .nxtstRocker t d1 d2 c.cfg.hsa c.cfg.ud (stateValidBit c.cs) (stateValueBit c.cs)
  | .toggleOnDir1 => .nxtstTgl1 t d1 d2 c.cfg.hsa c.cfg.ud (stateValidBit c.cs) (stateValueBit c.cs)
  | .toggleOnDir2 => .nxtstTgl2 t d1 d2 c.cfg.hsa c.cfg.ud (stateValidBit c.cs) (stateValueBit c.cs)

/-- The `ENCMD` request of a `SEND` (rule R155). -/
def sendEncmd (c : Context) (cmd : Command) : Instr :=
  match cmd with
  | .dir1Pressed => .encmdD1P c.cfg.var c.cfg.ch
  | .dir1Released => .encmdD1R c.cfg.var c.cfg.ch
  | .dir2Pressed => .encmdD2P c.cfg.var c.cfg.ch
  | .dir2Released => .encmdD2R c.cfg.var c.cfg.ch

/-! ## Handling one telegram -/

/-- The event of a telegram under a channel's context (rules R150, R151). -/
def contextEvent (c : Context) (t : Telegram) : Event := decodeEvent t c.cfg.var c.cfg.ch c.cfg.act c.le

/-- The new state of a telegram under a channel's context, action channel or not (rules R150, R151, R154). -/
def contextState (c : Context) (t : Telegram) : Option Bool :=
  nextState t (dir1Code c.cfg.var c.cfg.ch) (dir2Code c.cfg.var c.cfg.ch) c.cfg.hsa c.cfg.mode c.cs

/-- The event is one of the four directional events, codes 1 to 4 (rule R152). -/
def directional : Event → Bool
  | .dir1Pressed => true
  | .dir1Released => true
  | .dir2Pressed => true
  | .dir2Released => true
  | .noEvent => false
  | .released => false
  | .action _ _ => false

/-- `LE` after an event: written with its code on the four directional events, kept on every other (rule R152). -/
def lastAfter (le : BitVec 3) (ev : Event) : BitVec 3 := if directional ev then ev.code else le

/-- `CS` after a result of `NXTST`: written on `Some`, kept on None (rule R153). -/
def stateAfter (cs ns : Option Bool) : Option Bool :=
  match ns with
  | some v => some v
  | none => cs

/-- The two context writes of a handling (rules R152, R153); `CFG` is not written (rule R15). -/
def writeBack (c : Context) (ev : Event) (ns : Option Bool) : Context :=
  { c with cs := stateAfter c.cs ns, le := lastAfter c.le ev }

/-- The event as it is passed on: not when it is NoEvent (rule R154). -/
def eventEmission (i : Nat) (ev : Event) : List Emission := if ev = .noEvent then [] else [.event i ev]

/-- The new state as it is passed on: not when it is None (rule R154). -/
def stateEmission (i : Nat) (ud : Bool) : Option Bool → List Emission
  | some v => [.newState i ud v]
  | none => []

/-- What one handling passes on: the event, the new state, both or neither (rule R154). DESIGN CHOICE (assumption
log 15): the event is listed first. -/
def handlingEmissions (i : Nat) (c : Context) (t : Telegram) : List Emission :=
  eventEmission i (contextEvent c t) ++ stateEmission i c.cfg.ud (contextState c t)

/-- The context after one handling of a telegram: both results are computed from the context before it (rule R150). -/
def contextAfter (c : Context) (t : Telegram) : Context := writeBack c (contextEvent c t) (contextState c t)

/-- The context after two handlings that both read `c` before either wrote: the second write-back overwrites what its
own results name (rule R189). DESIGN CHOICE (assumption log 7): of the interleavings, this one. -/
def contextAfterOverlap (c : Context) (t1 t2 : Telegram) : Context :=
  writeBack (contextAfter c t1) (contextEvent c t2) (contextState c t2)

/-! ## The caller's actions -/

/-- `RECV i, SB, T21, NU`: one indivisible step of channel `i` (rules R150, R156). -/
def recv (i : Nat) (t : Telegram) (s : State) : Host.Outcome State Fault Refusal :=
  s.onConfigured i fun c => .next ((s.setContext i (contextAfter c t)).emit (handlingEmissions i c t))

/-- Two overlapping handlings of channel `i`: both read the context, then both write it (rules R156, R189; U13), in the
order of assumption log 7. DESIGN CHOICE (assumption log 18): all that the first passes on is listed, then all that the
second does; rule R189 says nothing of that order. -/
def recvOverlap (i : Nat) (t1 t2 : Telegram) (s : State) : Host.Outcome State Fault Refusal :=
  s.onConfigured i fun c =>
    .next ((s.setContext i (contextAfterOverlap c t1 t2)).emit (handlingEmissions i c t1 ++ handlingEmissions i c t2))

/-- `SEND i, cmd`: build the outbound telegram, write no context (rule R155). -/
def send (i : Nat) (cmd : Command) (s : State) : Host.Outcome State Fault Refusal :=
  s.onConfigured i fun c => .next (s.emit [.telegram i (encodeCommand cmd c.cfg.var c.cfg.ch)])

/-- Write `CFG[i]` and create the context at its reset values; on a channel that is configured already this ends it and
creates a new one (rules R187, R188, decision D30), also for an equal record (DESIGN CHOICE, assumption log 13). -/
def configure (i : Nat) (cfg : Cfg) (s : State) : Host.Outcome State Fault Refusal :=
  s.onChannel i fun _ =>
    .next (s.setContext i { configured := true, cfg := cfg, cs := Context.reset.cs, le := Context.reset.le })

/-- `DIRS var ch`: the caller's lookup in the direction table (rules R27, R62, R80). -/
def dirs (var : Variant) (ch : Channel) (s : State) : Host.Outcome State Fault Refusal :=
  .next (s.emit [.codes (dir1Code var ch) (dir2Code var ch)])

end Sys2Proof.Machine
end

