-- ==== Sys2Proof/Machine/Step.lean ====
section
/-!
DEFINITION. One step of the machine: the caller's next action, or, where no action is waiting, the core on the request
word at its input port. There is no program counter and no fetch from a memory (rules R12, R35); a run has no end of its
own (rule R194).
-/

namespace Sys2Proof.Machine

/-- The core on the word at `REQ`: the meaning of the request it encodes, or the `INV` response (rules R41, R57). -/
def runRequest (s : State) : Host.Outcome State Fault Refusal :=
  match s.fetch with
  | .ok i => exec i s
  | .error _ => invalidRequest s

/-- One action of the caller. -/
def handle (a : CallerAction) (s : State) : Host.Outcome State Fault Refusal :=
  match a with
  | .request w => runRequest (s.drive w)
  | .dirs var ch => dirs var ch s
  | .configure i cfg => configure i cfg s
  | .recv i t => recv i t s
  | .recvOverlap i t1 t2 => recvOverlap i t1 t2 s
  | .send i cmd => send i cmd s

/-- One step: the caller's next action in list order (rule R12; DESIGN CHOICE, assumption log 4), or else the core on
what its input port holds (DEDUCED, assumption log 9). -/
def step (s : State) : Host.Outcome State Fault Refusal :=
  match s.inbox with
  | [] => runRequest s
  | a :: rest => handle a { s with inbox := rest }

/-- `s` with the instruction of a row's bits at the input port and no action waiting, so that the next step runs it: the
presentation of a request from outside the machine (rule R12; assumption log 4). -/
def State.withFetchWord (s : State) (nbits w : Nat) : State := s.present (tableWord nbits w)

end Sys2Proof.Machine
end

