-- ==== Sys2Proof/Machine/Text.lean ====
section
/-!
DEFINITION. The text forms: the string tags of the events and commands that cross the block's boundary (rules R51, R63),
the composite action string (rule R64), and the one-line syntax of requests and responses (rule R61, decision D27). They
are the caller's; no operation reads or writes a string.
-/

namespace Sys2Proof.Machine

/-! ## Tags -/

/-- The token of a direction: `Dir1`, `Dir2`, and `-` for None (rules R50, R64, conflict C4). -/
def directionToken : Direction → String
  | .none => "-"
  | .dir1 => "Dir1"
  | .dir2 => "Dir2"

/-- The string tag of an event; of an Action event the composite string `<tokA>|<tokB>` (rules R51, R64). -/
def eventTag : Event → String
  | .noEvent => "NoEvent"
  | .dir1Pressed => "Dir1Pressed"
  | .dir1Released => "Dir1Released"
  | .dir2Pressed => "Dir2Pressed"
  | .dir2Released => "Dir2Released"
  | .released => "Released"
  | .action da db => directionToken da ++ "|" ++ directionToken db

/-- The tag of a command (rule R63). -/
def commandTag : Command → String
  | .dir1Pressed => "Dir1Pressed"
  | .dir1Released => "Dir1Released"
  | .dir2Pressed => "Dir2Pressed"
  | .dir2Released => "Dir2Released"

/-- The command of a tag; a tag outside the four cannot be presented (rule R63). -/
def commandOfTag (tag : String) : Option Command :=
  if tag = "Dir1Pressed" then some .dir1Pressed
  else if tag = "Dir1Released" then some .dir1Released
  else if tag = "Dir2Pressed" then some .dir2Pressed
  else if tag = "Dir2Released" then some .dir2Released
  else none

/-! ## Value names of rule R61 -/

/-- A boolean field's value, 1 or 0 (rule R50). -/
def flagName (b : Bool) : String := if b then "1" else "0"

/-- A hexadecimal digit. -/
def hexDigit (v : BitVec 4) : Char := "0123456789ABCDEF".toList.getD v.toNat '0'

/-- A status byte as `0x` and two hexadecimal digits. -/
def byteName (b : Byte) : String :=
  String.ofList ['0', 'x', hexDigit (b.extractLsb' 4 4), hexDigit (b.extractLsb' 0 4)]

/-- `var` is `STD` or `INV`. -/
def variantName : Variant → String
  | .standard => "STD"
  | .inverted => "INV"

/-- `ch` is `A` or `B`. -/
def channelName : Channel → String
  | .a => "A"
  | .b => "B"

/-- `d1`, `d2` are `AI`, `A0`, `BI`, `B0`. -/
def rockerName : RockerCode → String
  | .ai => "AI"
  | .a0 => "A0"
  | .bi => "BI"
  | .b0 => "B0"

/-- `mode` is `ROCKER`, `TGL1`, `TGL2`. -/
def modeName : SwitchMode → String
  | .rocker => "ROCKER"
  | .toggleOnDir1 => "TGL1"
  | .toggleOnDir2 => "TGL2"

/-- `last` is `NONE` or an event tag; code 7 has no name (rules R51, R53). -/
def lastName (last : BitVec 3) : Option String :=
  ["NONE", "Dir1Pressed", "Dir1Released", "Dir2Pressed", "Dir2Released", "Released", "Action"][last.toNat]?

/-- `cs` is `NONE`, `OFF`, `ON`, and with `ud` = 1 is written `DOWN`, `UP`; a value without the valid bit has no name
(rule R52). -/
def stateName (ud csv csb : Bool) : Option String :=
  match csv, csb with
  | false, false => some "NONE"
  | false, true => none
  | true, false => some (if ud then "DOWN" else "OFF")
  | true, true => some (if ud then "UP" else "ON")

/-- `ns` is `None`, `On`, `Off`, `Up`, `Down` (rules R47, R119). -/
def newStateName (ud : Bool) : Option Bool → String
  | none => "None"
  | some true => if ud then "Up" else "On"
  | some false => if ud then "Down" else "Off"

/-! ## Requests and responses in one line -/

/-- A mnemonic or a result and its `field=value` pairs. -/
def textLine (head : String) (fields : List (String × String)) : String :=
  fields.foldl (fun line f => line ++ " " ++ f.1 ++ "=" ++ f.2) head

/-- `sb`, `t21`, `nu`, in the order of the format tables from low bits to high. -/
def telegramFields (t : Telegram) : List (String × String) :=
  [("sb", byteName t.sb), ("t21", flagName t.t21), ("nu", flagName t.nu)]

/-- A `DECEV` request in text. -/
def decevText (act : Bool) (t : Telegram) (var : Variant) (ch : Channel) (last : BitVec 3) : Option String :=
  (lastName last).map fun l =>
    textLine "DECEV" (telegramFields t ++
      [("var", variantName var), ("ch", channelName ch), ("act", flagName act), ("last", l)])

/-- A `NXTST` request in text. -/
def nxtstText (mode : SwitchMode) (t : Telegram) (d1c d2c : RockerCode) (hsa ud csv csb : Bool) : Option String :=
  (stateName ud csv csb).map fun cs =>
    textLine "NXTST" (telegramFields t ++
      [("d1", rockerName d1c), ("d2", rockerName d2c), ("hsa", flagName hsa), ("mode", modeName mode),
       ("ud", flagName ud), ("cs", cs)])

/-- An `ENCMD` request in text. -/
def encmdText (cmd : Command) (var : Variant) (ch : Channel) : String :=
  textLine "ENCMD" [("var", variantName var), ("ch", channelName ch), ("cmd", commandTag cmd)]

/-- A request in one line; an invalid request has no text (rule R61). -/
def requestText : Instr → Option String
  | .decevDir t var ch last => decevText false t var ch last
  | .decevAct t var ch last => decevText true t var ch last
  | .nxtstRocker t d1c d2c hsa ud csv csb => nxtstText .rocker t d1c d2c hsa ud csv csb
  | .nxtstTgl1 t d1c d2c hsa ud csv csb => nxtstText .toggleOnDir1 t d1c d2c hsa ud csv csb
  | .nxtstTgl2 t d1c d2c hsa ud csv csb => nxtstText .toggleOnDir2 t d1c d2c hsa ud csv csb
  | .encmdD1P var ch => some (encmdText .dir1Pressed var ch)
  | .encmdD1R var ch => some (encmdText .dir1Released var ch)
  | .encmdD2P var ch => some (encmdText .dir2Pressed var ch)
  | .encmdD2R var ch => some (encmdText .dir2Released var ch)
  | .teach t var => some (textLine "TEACH" (telegramFields t ++ [("var", variantName var)]))

/-- The response of a `DECEV` in text: `ev`, and `da`, `db` of an Action event (rule R61). -/
def eventText : Event → String
  | .action da db => "ev=Action da=" ++ directionToken da ++ " db=" ++ directionToken db
  | ev => "ev=" ++ eventTag ev

/-- The response of a `NXTST` in text (rule R61). -/
def newStateText (ud : Bool) (ns : Option Bool) : String := "ns=" ++ newStateName ud ns

/-- The response of an `ENCMD` in text (rule R61). -/
def telegramText (t : Telegram) : String :=
  "sb=" ++ byteName t.sb ++ " t21=" ++ flagName t.t21 ++ " nu=" ++ flagName t.nu

/-- The response of a `TEACH` in text (rule R61). -/
def teachText (ok : Bool) : String := "ok=" ++ flagName ok

/-! ## Reading a request line -/

/-- Cut a text at every occurrence of a character. -/
def cutAt (sep : Char) : List Char → List (List Char)
  | [] => [[]]
  | c :: rest =>
    if c = sep then [] :: cutAt sep rest
    else
      match cutAt sep rest with
      | [] => [[c]]
      | w :: ws => (c :: w) :: ws

/-- The words of a line: blanks may be repeated. -/
def lineWords (line : String) : List (List Char) := (cutAt ' ' line.toList).filter fun w => !w.isEmpty

/-- A `field=value` word. -/
def readPair (w : List Char) : Option (String × String) :=
  match cutAt '=' w with
  | [n, v] => some (String.ofList n, String.ofList v)
  | _ => none

/-- The value of a field: one left out is 0 (rule R61), a name that is none of the field's has no value. -/
def readField {α : Type} (pairs : List (String × String)) (name : String) (zero : α) (names : List (String × α)) :
    Option α :=
  match pairs.lookup name with
  | none => some zero
  | some v => names.lookup v

/-- The two names of a boolean field. -/
def flagNames : List (String × Bool) := [("0", false), ("1", true)]

/-- The names of the 256 status bytes. -/
def byteNames : List (String × Byte) := (List.range 256).map fun n => (byteName (BitVec.ofNat 8 n), BitVec.ofNat 8 n)

/-- The names of the rocker codes. -/
def rockerNames : List (String × RockerCode) := [("AI", .ai), ("A0", .a0), ("BI", .bi), ("B0", .b0)]

/-- The names of `last` and the event codes they stand for (rule R53). -/
def lastNames : List (String × BitVec 3) :=
  [("NONE", 0#3), ("NoEvent", 0#3), ("Dir1Pressed", 1#3), ("Dir1Released", 2#3), ("Dir2Pressed", 3#3),
   ("Dir2Released", 4#3), ("Released", 5#3), ("Action", 6#3)]

/-- The names of `cs`: `DOWN` and `UP` may be written with `ud` = 1. -/
def stateNames (ud : Bool) : List (String × Option Bool) :=
  [("NONE", none), ("OFF", some false), ("ON", some true)] ++
    if ud then [("DOWN", some false), ("UP", some true)] else []

/-- The telegram of a request line. -/
def readTelegram (ps : List (String × String)) : Option Telegram := do
  let sb ← readField ps "sb" 0#8 byteNames
  let t21 ← readField ps "t21" false flagNames
  let nu ← readField ps "nu" false flagNames
  pure { sb := sb, t21 := t21, nu := nu }

/-- The variant of a request line. -/
def readVariant (ps : List (String × String)) : Option Variant :=
  readField ps "var" .standard [("STD", .standard), ("INV", .inverted)]

/-- The channel of a request line. -/
def readChannel (ps : List (String × String)) : Option Channel := readField ps "ch" .a [("A", .a), ("B", .b)]

/-- Every field of a line is one of its format's. -/
def onlyFields (ps : List (String × String)) (names : List String) : Bool := ps.all fun p => names.contains p.1

/-- A `DECEV` line; `act` selects the form. -/
def readDecev (ps : List (String × String)) : Option Instr := do
  let t ← readTelegram ps
  let var ← readVariant ps
  let ch ← readChannel ps
  let act ← readField ps "act" false flagNames
  let last ← readField ps "last" 0#3 lastNames
  pure (if act then .decevAct t var ch last else .decevDir t var ch last)

/-- The names of the switch modes. -/
def modeNames : List (String × SwitchMode) :=
  [("ROCKER", .rocker), ("TGL1", .toggleOnDir1), ("TGL2", .toggleOnDir2)]

/-- A `NXTST` line; `mode` selects the form. -/
def readNxtst (ps : List (String × String)) : Option Instr := do
  let t ← readTelegram ps
  let d1 ← readField ps "d1" .ai rockerNames
  let d2 ← readField ps "d2" .ai rockerNames
  let hsa ← readField ps "hsa" false flagNames
  let mode ← readField ps "mode" SwitchMode.rocker modeNames
  let ud ← readField ps "ud" false flagNames
  let cs ← readField ps "cs" none (stateNames ud)
  pure (match mode with
    | .rocker => .nxtstRocker t d1 d2 hsa ud cs.isSome (cs.getD false)
    | .toggleOnDir1 => .nxtstTgl1 t d1 d2 hsa ud cs.isSome (cs.getD false)
    | .toggleOnDir2 => .nxtstTgl2 t d1 d2 hsa ud cs.isSome (cs.getD false))

/-- An `ENCMD` line; `cmd` selects the form. -/
def readEncmd (ps : List (String × String)) : Option Instr := do
  let var ← readVariant ps
  let ch ← readChannel ps
  let cmd ← match ps.lookup "cmd" with
    | none => some .dir1Pressed
    | some tag => commandOfTag tag
  pure (match cmd with
    | .dir1Pressed => .encmdD1P var ch
    | .dir1Released => .encmdD1R var ch
    | .dir2Pressed => .encmdD2P var ch
    | .dir2Released => .encmdD2R var ch)

/-- A `TEACH` line. -/
def readTeach (ps : List (String × String)) : Option Instr := do
  let t ← readTelegram ps
  let var ← readVariant ps
  pure (.teach t var)

/-- The request a mnemonic and its pairs name. -/
def readOperation (mnemonic : String) (ps : List (String × String)) : Option Instr :=
  if mnemonic = "DECEV" then
    if onlyFields ps ["sb", "t21", "nu", "var", "ch", "act", "last"] then readDecev ps else none
  else if mnemonic = "NXTST" then
    if onlyFields ps ["sb", "t21", "nu", "d1", "d2", "hsa", "mode", "ud", "cs"] then readNxtst ps else none
  else if mnemonic = "ENCMD" then if onlyFields ps ["var", "ch", "cmd"] then readEncmd ps else none
  else if mnemonic = "TEACH" then if onlyFields ps ["sb", "t21", "nu", "var"] then readTeach ps else none
  else none

/-- The request of one line of text: a mnemonic and `field=value` pairs (rule R61). -/
def readRequest (line : String) : Option Instr :=
  match lineWords line with
  | [] => none
  | m :: ws =>
    match ws.mapM readPair with
    | some ps => readOperation (String.ofList m) ps
    | none => none

end Sys2Proof.Machine
end

