-- ==== Sys2Proof/Safety.lean ====
section
/-!
DEFINITION. What a safe run is, in the terms the claims use: the invariant of the machine's state, and what the caller
owes the machine before an action (rule R187).
-/

namespace Sys2Proof.Machine

/-- The output port shows the response to the word at the input port (rules R10, R185, R195). -/
abbrev State.portsAgree (s : State) : Prop := s.rsp = blockResponse s.req

/-- What holds of every channel's context: before it is configured it is the reset context (rules R20, R186), and `LE`
holds 0 or the code of a directional event, and stays 0 on an action channel (rules R152, R20). -/
abbrev Context.wf (c : Context) : Prop :=
  (c.configured = false → c = Context.reset) ∧ c.le.toNat ≤ 4 ∧ (c.cfg.act = true → c.le = 0#3)

/-- The invariant of the machine: the store is in its canonical form, every context listed is well formed, and the
output port is the function of the input port. -/
abbrev State.inv (s : State) : Prop :=
  Store.wf s.store ∧ (∀ x ∈ s.store, Context.wf x.2) ∧ s.portsAgree

/-- What the caller must have done before an action (rules R28, R187). A request presented to the core directly, and a
`DIRS`, need nothing set up at all; a configuration needs an identifier that exists; the others a configured channel. -/
def State.allows (s : State) : CallerAction → Prop
  | .request _ => True
  | .dirs _ _ => True
  | .configure i _ => i < Config.nch
  | .recv i _ => i < Config.nch ∧ (s.context i).configured = true
  | .recvOverlap i _ _ => i < Config.nch ∧ (s.context i).configured = true
  | .send i _ => i < Config.nch ∧ (s.context i).configured = true

/-- The identifier of the channel whose context an action writes, if it writes one. -/
def CallerAction.writes : CallerAction → Option Nat
  | .request _ => none
  | .dirs _ _ => none
  | .configure i _ => some i
  | .recv i _ => some i
  | .recvOverlap i _ _ => some i
  | .send _ _ => none

/-- The identifier of the channel an action is for, if it is for one. -/
def CallerAction.channel : CallerAction → Option Nat
  | .request _ => none
  | .dirs _ _ => none
  | .configure i _ => some i
  | .recv i _ => some i
  | .recvOverlap i _ _ => some i
  | .send i _ => some i

/-- The word an action presents to the core, if it presents one. -/
def CallerAction.word : CallerAction → Option Word
  | .request w => some w
  | .dirs _ _ => none
  | .configure _ _ => none
  | .recv _ _ => none
  | .recvOverlap _ _ _ => none
  | .send _ _ => none

/-- The channel an emission belongs to, if it belongs to one. -/
def Emission.channel : Emission → Option Nat
  | .event i _ => some i
  | .newState i _ _ => some i
  | .telegram i _ => some i
  | .codes _ _ => none

/-- What was passed on for one channel, in order. -/
def emittedFor (i : Nat) (es : List Emission) : List Emission := es.filter fun e => Emission.channel e == some i

/-- The events passed on for one channel, in order. -/
def eventsFor (i : Nat) : List Emission → List Event
  | [] => []
  | .event j ev :: es => if j = i then ev :: eventsFor i es else eventsFor i es
  | .newState _ _ _ :: es => eventsFor i es
  | .telegram _ _ :: es => eventsFor i es
  | .codes _ _ :: es => eventsFor i es

/-! ## Invalid request words, in the words of rule R57 -/

/-- A reserved (`0`) bit of the word's format is 1: bits 29..16 of format D, 29..20 of format N, 29..14 and 9..0 of
format E, 29..11 of format T (rules R42 to R45, R57). -/
def reservedBitSet (w : Word) : Prop :=
  (bits w 30 2 = 0#2 ∧ bits w 16 14 ≠ 0#14) ∨ (bits w 30 2 = 1#2 ∧ bits w 20 10 ≠ 0#10) ∨
  (bits w 30 2 = 2#2 ∧ (bits w 14 16 ≠ 0#16 ∨ bits w 0 10 ≠ 0#10)) ∨ (bits w 30 2 = 3#2 ∧ bits w 11 19 ≠ 0#19)

/-- The four cases of rule R57: a reserved bit set; `OP` = 1 and `MODE` = 3; `OP` = 1, `CSV` = 0 and `CSB` = 1; `OP` = 0
and `LAST` = 7. -/
def invalidWord (w : Word) : Prop :=
  reservedBitSet w ∨ (bits w 30 2 = 1#2 ∧ bits w 15 2 = 3#2) ∨
  (bits w 30 2 = 1#2 ∧ w.getLsbD 18 = false ∧ w.getLsbD 19 = true) ∨ (bits w 30 2 = 0#2 ∧ bits w 13 3 = 7#3)

/-- The extra validity condition of a row of rule R56, read off the word. -/
def rowCondition (r : OpcodeRow) (w : Word) : Prop :=
  if r = rowDecevDir ∨ r = rowDecevAct then bits w 13 3 ≠ 7#3
  else if r = rowNxtstRocker ∨ r = rowNxtstTgl1 ∨ r = rowNxtstTgl2 then ¬ (w.getLsbD 18 = false ∧ w.getLsbD 19 = true)
  else True

/-! ## What the caller owes over a list of actions -/

/-- Every action of a list names a channel that exists, and a `RECV` or `SEND` names one that is configured already or
was configured earlier in the list (rules R28, R187). -/
def prepared (done : List Nat) : List CallerAction → Prop
  | [] => True
  | .request _ :: rest => prepared done rest
  | .dirs _ _ :: rest => prepared done rest
  | .configure i _ :: rest => i < Config.nch ∧ prepared (i :: done) rest
  | .recv i _ :: rest => (i < Config.nch ∧ i ∈ done) ∧ prepared done rest
  | .recvOverlap i _ _ :: rest => (i < Config.nch ∧ i ∈ done) ∧ prepared done rest
  | .send i _ :: rest => (i < Config.nch ∧ i ∈ done) ∧ prepared done rest

/-! ## A channel's context along a list of telegrams -/

/-- The context after a list of telegrams handled one after the other (rules R150, R156). -/
def contextRun (c : Context) : List Telegram → Context
  | [] => c
  | t :: ts => contextRun (contextAfter c t) ts

/-- How many `…Pressed` events a channel emits along a list of telegrams. -/
def pressedCount (c : Context) : List Telegram → Nat
  | [] => 0
  | t :: ts =>
    (if contextEvent c t = .dir1Pressed ∨ contextEvent c t = .dir2Pressed then 1 else 0) +
      pressedCount (contextAfter c t) ts

/-- How many `…Released` events a channel emits for release telegrams (`NU` = 0) along a list of telegrams. -/
def releasedCount (c : Context) : List Telegram → Nat
  | [] => 0
  | t :: ts =>
    (if releaseTelegram t = true ∧ (contextEvent c t = .dir1Released ∨ contextEvent c t = .dir2Released) then 1 else 0) +
      releasedCount (contextAfter c t) ts

end Sys2Proof.Machine
end

