-- ==== Sys2Proof/Certificates/Slice0/Obligations.lean ====
section
/-!
DEFINITION. The statements for the provers, from the numbered rules of spec/. OBLIGATIONS.json lists them with the rule
and the sentence each formalises. A statement of an instruction gives the whole next state as the state before with its
response port written, so it is the instruction's result, its completion and its frame at once.
-/

open Sys2Proof Sys2Proof.Machine

/-! ## Encoding -/

/-- Every valid request is read back from its word, with every operand at every value (rules R42 to R45, R55). -/
def Obligations.DecodeReadsBackEveryValidRequest : Prop :=
  ∀ i : Instr, i.wf = true → decode (encode i) = .ok i

/-- A word the decoder accepts is the word of the valid request it reads: no bit of it is dropped (rules R42 to R45). -/
def Obligations.EncodeWritesBackEveryDecodedWord : Prop :=
  ∀ (w : Word) (i : Instr), decode w = .ok i → i.wf = true ∧ encode i = w

/-- On a byte-wide path the byte of bits 7..0 comes first, and the bytes after the four are left (20_memory.md
section 2, decision D20; rule R59). -/
def Obligations.BytePathCarriesLowByteFirst : Prop :=
  ∀ (w : Word) (rest : List Byte),
    decodeBytes (w.extractLsb' 0 8 :: w.extractLsb' 8 8 :: w.extractLsb' 16 8 :: w.extractLsb' 24 8 :: rest) =
      match decode w with
      | .ok i => .ok (i, rest)
      | .error e => .error e

/-- Rule R57: the words that match no row, or fail their row's extra condition, are those of its four cases, and the
machine answers each with `0x80000000`; nothing else changes. -/
def Obligations.InvalidWordsAnswerInv : Prop :=
  ∀ w : Word,
    ((¬ ∃ r ∈ opcodeMap, r.selects w = true ∧ rowCondition r w) ↔ invalidWord w) ∧
    (invalidWord w → ∀ s : State, s.inbox = [] → s.req = w → step s = .next { s with rsp := 0x80000000#32 })

/-- The rows of rule R56 are disjoint, and a word the decoder accepts matches exactly the row of the form it reads. -/
def Obligations.ValidWordMatchesExactlyOneRow : Prop :=
  ∀ (w : Word) (i : Instr), decode w = .ok i →
    i.row ∈ opcodeMap ∧ ∀ r ∈ opcodeMap, (r.selects w = true ↔ r = i.row)

/-- A request term that is no valid request (`LAST` = 7, or `CSB` without `CSV`) encodes to a word the decoder
refuses. Rule R57 speaks of words; that `exec` of such a term gives the `INV` response too, as its word gets, is the
model's (DEDUCED, assumption log 8). -/
def Obligations.IllFormedRequestsAnswerInv : Prop :=
  ∀ (i : Instr) (s : State), i.wf = false →
    (∃ e, decode (encode i) = .error e) ∧ exec i s = .next { s with rsp := 0x80000000#32 }

/-- Words of 95_test_vectors.md, one per operation, decode to the request written beside them (a sanity statement). -/
def Obligations.SampleWordsDecode : Prop :=
  decode 0x00000730#32 = .ok (.decevDir ⟨0x30#8, true, true⟩ .inverted .a 0#3) ∧
  decode 0x00007D00#32 = .ok (.decevAct ⟨0x00#8, true, false⟩ .inverted .b 3#3) ∧
  decode 0x400CEF17#32 = .ok (.nxtstTgl1 ⟨0x17#8, true, true⟩ .b0 .bi true false true true) ∧
  decode 0x80002C00#32 = .ok (.encmdD2P .inverted .b) ∧
  decode 0xC0000130#32 = .ok (.teach ⟨0x30#8, true, false⟩ .standard)

/-! ## The step and the core as a function of its request -/

/-- The model's stepping conventions: with no action waiting a step runs the request at the input port (DEDUCED,
assumption log 9), and with a request waiting it drives the port with the word, takes the action off the list and runs
the request (DESIGN CHOICE, assumption log 4). The request run is the one the word decodes to. -/
def Obligations.StepRunsTheDecodedRequest : Prop :=
  (∀ (s : State) (i : Instr), s.inbox = [] → decode s.req = .ok i → step s = exec i s) ∧
  (∀ (s : State) (w : Word) (rest : List CallerAction) (i : Instr), s.inbox = .request w :: rest → decode w = .ok i →
    step s = exec i { s with req := w, inbox := rest })

/-- Rule R10: whatever words were requested before it, a request word gets the response that is a function of that word
alone, and the whole list of requests leaves nothing else behind. -/
def Obligations.RequestListAnswersEachWordAlone : Prop :=
  ∀ (ws : List Word) (w : Word) (s : State), s.inbox = ws.map CallerAction.request ++ [.request w] →
    core.run (ws.length + 1) s = .next { s with req := w, rsp := blockResponse w, inbox := [] }

/-! ## Reset and the invariant -/

/-- Rule R20: after reset `CS` is None and `LE` is 0 for every channel. -/
def Obligations.ResetContextsAreUndefined : Prop :=
  ∀ i : Nat, (State.reset.context i).cs = none ∧ (State.reset.context i).le = 0#3

/-- The state after reset meets the invariant. That its input port holds the word 0 is the model's choice (assumption
log 3). -/
def Obligations.ResetMeetsTheInvariant : Prop := State.reset.inv

/-- Every step keeps the invariant: the store stays in canonical form, `LE` stays 0 or a directional event's code and 0
on an action channel, an unconfigured channel stays as reset left it, the output port is the function of the input
port. -/
def Obligations.StepKeepsTheInvariant : Prop :=
  ∀ s t : State, s.inv → step s = .next t → t.inv

/-! ## The bit codec and the direction table -/

/-- The fields of a status byte are its bits 7..5, 3..1, 4, 0 and 7, and the reserved bit is set exactly when the
primary code is no rocker code (rules R70 to R74). -/
def Obligations.StatusByteFieldsAreItsBits : Prop :=
  ∀ b : Byte, primaryCode b = b.extractLsb' 5 3 ∧ secondaryCode b = b.extractLsb' 1 3 ∧
    primaryPressed b = b.getLsbD 4 ∧ secondaryPressed b = b.getLsbD 0 ∧ reservedBit b = b.getLsbD 7 ∧
    (reservedBit b = true ↔ 4 ≤ (primaryCode b).toNat)

/-- Rule R79: a status byte is made up of its four fields, and every choice of the fields is the decomposition of the
byte made of them. -/
def Obligations.FieldsPartitionTheStatusByte : Prop :=
  (∀ b : Byte, b = ((primaryCode b).setWidth 8 <<< 5) ||| ((BitVec.ofBool (primaryPressed b)).setWidth 8 <<< 4) |||
    ((secondaryCode b).setWidth 8 <<< 1) ||| (BitVec.ofBool (secondaryPressed b)).setWidth 8) ∧
  (∀ (r1 r2 : BitVec 3) (p1 p2 : Bool), ∃ b : Byte,
    primaryCode b = r1 ∧ primaryPressed b = p1 ∧ secondaryCode b = r2 ∧ secondaryPressed b = p2)

/-- Rule R75: `hasBit(b, n)` is bit `n` of `b`, for `n` in 0..7. -/
def Obligations.HasBitReadsOneBit : Prop :=
  ∀ (b : Byte) (n : BitVec 3), hasBit b n = b.getLsbD n.toNat

/-- Rule R78: the four press bytes, and their fields. -/
def Obligations.ComposeGivesTheFourPressBytes : Prop :=
  compose .ai = 0x10#8 ∧ compose .a0 = 0x30#8 ∧ compose .bi = 0x50#8 ∧ compose .b0 = 0x70#8 ∧
  ∀ c : RockerCode, compose c = (c.code.setWidth 8 <<< 5) ||| 0x10#8 ∧ primaryCode (compose c) = c.code.setWidth 3 ∧
    primaryPressed (compose c) = true ∧ secondaryCode (compose c) = 0#3 ∧ secondaryPressed (compose c) = false ∧
    reservedBit (compose c) = false

/-- Rules R26 and R80: the addresses and words of the direction ROM, and the four rows of the table. -/
def Obligations.DirectionRomHoldsTheTable : Prop :=
  (romAddress .standard .a = 0#2 ∧ romAddress .standard .b = 1#2 ∧ romAddress .inverted .a = 2#2 ∧
    romAddress .inverted .b = 3#2) ∧
  (romRead 0#2 = 0x08#6 ∧ romRead 1#2 = 0x1A#6 ∧ romRead 2#2 = 0x01#6 ∧ romRead 3#2 = 0x13#6) ∧
  (directionsFor .standard .a = (.a0, .ai) ∧ directionsFor .standard .b = (.b0, .bi) ∧
    directionsFor .inverted .a = (.ai, .a0) ∧ directionsFor .inverted .b = (.bi, .b0)) ∧
  (∀ (var : Variant) (ch : Channel),
    (dir1Code var ch).code.setWidth 3 = (romRead (romAddress var ch)).extractLsb' 3 3 ∧
    (dir2Code var ch).code.setWidth 3 = (romRead (romAddress var ch)).extractLsb' 0 3)

/-- The closed form of the table (41_direction_table.md R82's sentence) and its properties (a) to (d): distinct codes,
the swap of the variants, the separation of the channels, and one meaning for every code under a variant. -/
def Obligations.DirectionTableHasItsClosedForm : Prop :=
  (∀ (var : Variant) (ch : Channel), (dir1Code var ch).code = ch.bit ++ ~~~var.bit ∧
    (dir2Code var ch).code = ch.bit ++ var.bit ∧ dir1Code var ch ≠ dir2Code var ch) ∧
  (∀ ch : Channel, directionsFor .inverted ch = (dir2Code .standard ch, dir1Code .standard ch)) ∧
  (∀ (var : Variant) (c : RockerCode), ∃ ch : Channel, (dir1Code var ch = c ∨ dir2Code var ch = c) ∧
    ∀ ch' : Channel, (dir1Code var ch' = c ∨ dir2Code var ch' = c) → ch' = ch)

/-- Rule R84: the table read the other way, on every 3-bit code. -/
def Obligations.DirectionOfReadsTheTableBackwards : Prop :=
  ∀ (var : Variant) (ch : Channel) (code : BitVec 3),
    directionOf var ch code =
      if code = (dir1Code var ch).code.setWidth 3 then .dir1
      else if code = (dir2Code var ch).code.setWidth 3 then .dir2
      else .none

/-- `DIRS var ch`: the caller gets the row of the table (rule R80). That it gets it in the list `emitted` (DESIGN
CHOICE, assumption log 5) and that the ports stay as they are (DESIGN CHOICE, assumption log 6) are the model's. -/
def Obligations.DirsPassesOnTheTableRow : Prop :=
  ∀ (s : State) (var : Variant) (ch : Channel) (rest : List CallerAction), s.inbox = .dirs var ch :: rest →
    step s = .next { s with
      inbox := rest
      emitted := s.emitted ++ [.codes (directionsFor var ch).1 (directionsFor var ch).2] }

/-! ## `DECEV` -/

/-- Rules R90 and R99: a telegram with bit 7 set, or with `T21` = 0, gives NoEvent in both forms, for every variant,
channel and `LAST`. -/
def Obligations.RejectedTelegramsGiveNoEvent : Prop :=
  ∀ (s : State) (t : Telegram) (var : Variant) (ch : Channel) (last : BitVec 3), last ≠ 7#3 →
    (t.sb.getLsbD 7 = true ∨ t.t21 = false) →
    exec (.decevDir t var ch last) s = .next { s with rsp := 0x00000000#32 } ∧
    exec (.decevAct t var ch last) s = .next { s with rsp := 0x00000000#32 }

/-- Rule R91: the directional form, every operand, its steps in their order; nothing but the response port changes. -/
def Obligations.DecevDirFollowsItsSteps : Prop :=
  ∀ (s : State) (sb : Byte) (t21 nu : Bool) (var : Variant) (ch : Channel) (last : BitVec 3), last ≠ 7#3 →
    exec (.decevDir ⟨sb, t21, nu⟩ var ch last) s = .next { s with
      rsp :=
        if sb.getLsbD 7 = true then 0#32
        else if t21 = true ∧ nu = true then
          (if sb.getLsbD 4 = true ∧ sb.getLsbD 0 = true then 0#32
           else if sb >>> 5 = (dir1Code var ch).code.setWidth 8 then (if sb.getLsbD 4 = true then 1#32 else 2#32)
           else if sb >>> 5 = (dir2Code var ch).code.setWidth 8 then (if sb.getLsbD 4 = true then 3#32 else 4#32)
           else 0#32)
        else if t21 = true ∧ nu = false then (if last = 1#3 then 2#32 else if last = 3#3 then 4#32 else 0#32)
        else 0#32 }

/-- 42_event_decoder.md section 4, orientation duality: on a press telegram the Inverted variant gives the Standard
variant's event with Dir1 and Dir2 exchanged, codes 1 with 3 and 2 with 4. -/
def Obligations.InvertedVariantExchangesDirections : Prop :=
  ∀ (s : State) (sb : Byte) (ch : Channel) (last : BitVec 3), last ≠ 7#3 →
    ∃ r : Word, r.toNat ≤ 4 ∧
      exec (.decevDir ⟨sb, true, true⟩ .standard ch last) s = .next { s with rsp := r } ∧
      exec (.decevDir ⟨sb, true, true⟩ .inverted ch last) s = .next { s with
        rsp := if r = 1#32 then 3#32 else if r = 3#32 then 1#32 else if r = 2#32 then 4#32
          else if r = 4#32 then 2#32 else r }

/-- 42_event_decoder.md section 4, the fields each branch of the directional form reads: a press telegram its bits 7..4
and 0, the variant and the channel; a release telegram bit 7 and `LAST`. -/
def Obligations.DecevDirReadsOnlyItsFields : Prop :=
  (∀ (s : State) (sb sb' : Byte) (var : Variant) (ch : Channel) (last last' : BitVec 3), last ≠ 7#3 → last' ≠ 7#3 →
    sb &&& 0xF1#8 = sb' &&& 0xF1#8 →
    exec (.decevDir ⟨sb, true, true⟩ var ch last) s = exec (.decevDir ⟨sb', true, true⟩ var ch last') s) ∧
  (∀ (s : State) (sb sb' : Byte) (var var' : Variant) (ch ch' : Channel) (last : BitVec 3), last ≠ 7#3 →
    sb.getLsbD 7 = sb'.getLsbD 7 →
    exec (.decevDir ⟨sb, true, false⟩ var ch last) s = exec (.decevDir ⟨sb', true, false⟩ var' ch' last) s)

/-- Rule R92 with rules R93, R94 and R97: the action form, every operand; each slot counts with its own press flag, Dir1
is tested before Dir2, the variant, the channel and `LAST` are not read. -/
def Obligations.DecevActReportsBothChannels : Prop :=
  ∀ (s : State) (sb : Byte) (t21 nu : Bool) (var : Variant) (ch : Channel) (last : BitVec 3), last ≠ 7#3 →
    exec (.decevAct ⟨sb, t21, nu⟩ var ch last) s = .next { s with
      rsp :=
        if sb.getLsbD 7 = true then 0#32
        else if t21 = true ∧ nu = true then
          6#32 |||
          (if sb >>> 5 = 1#8 ∧ sb.getLsbD 4 = true then 1#32 <<< 3
           else if sb >>> 5 = 0#8 ∧ sb.getLsbD 4 = true then 2#32 <<< 3
           else 0#32) |||
          (if (sb >>> 5 = 3#8 ∧ sb.getLsbD 4 = true) ∨ ((sb &&& 0xF#8) >>> 1 = 3#8 ∧ sb.getLsbD 0 = true) then
             1#32 <<< 5
           else if (sb >>> 5 = 2#8 ∧ sb.getLsbD 4 = true) ∨ ((sb &&& 0xF#8) >>> 1 = 2#8 ∧ sb.getLsbD 0 = true) then
             2#32 <<< 5
           else 0#32)
        else if t21 = true ∧ nu = false then 5#32
        else 0#32 }

/-- 42_event_decoder.md section 4: the directions of an action event by the two halves of the byte, and a telegram
reports both channels only through the secondary slot. -/
def Obligations.ActionDirectionsByNibble : Prop :=
  ∀ b : Byte,
    (dirA b = if b >>> 4 = 3#8 then .dir1 else if b >>> 4 = 1#8 then .dir2 else .none) ∧
    (dirB b = if b >>> 4 = 7#8 ∨ b &&& 0xF#8 = 7#8 then .dir1
      else if b >>> 4 = 5#8 ∨ b &&& 0xF#8 = 5#8 then .dir2 else .none) ∧
    (dirA b ≠ .none ∧ dirB b ≠ .none → b.getLsbD 4 = true ∧ b.getLsbD 0 = true ∧ (b >>> 5).toNat ≤ 1 ∧
      ((b &&& 0xF#8) >>> 1 = 2#8 ∨ (b &&& 0xF#8) >>> 1 = 3#8))

/-! ## `NXTST` -/

/-- Rule R111: with bit 7 set, `T21` = 0 or `NU` = 0, every form gives None, whatever the other operands. -/
def Obligations.ShutGateChangesNothing : Prop :=
  ∀ (s : State) (t : Telegram) (d1c d2c : RockerCode) (hsa ud csv csb : Bool), (csv = true ∨ csb = false) →
    (t.sb.getLsbD 7 = true ∨ t.t21 = false ∨ t.nu = false) →
    exec (.nxtstRocker t d1c d2c hsa ud csv csb) s = .next { s with rsp := 0x00000000#32 } ∧
    exec (.nxtstTgl1 t d1c d2c hsa ud csv csb) s = .next { s with rsp := 0x00000000#32 } ∧
    exec (.nxtstTgl2 t d1c d2c hsa ud csv csb) s = .next { s with rsp := 0x00000000#32 }

/-- Rule R114: Rocker mode, every operand, the slots in their order; `currentState` is not read. The response word 3 is
On and 1 Off, with `UD` 7 is Up and 5 Down. -/
def Obligations.RockerModeMapsAPress : Prop :=
  ∀ (s : State) (sb : Byte) (t21 nu : Bool) (d1c d2c : RockerCode) (hsa ud csv csb : Bool),
    (csv = true ∨ csb = false) →
    exec (.nxtstRocker ⟨sb, t21, nu⟩ d1c d2c hsa ud csv csb) s = .next { s with
      rsp :=
        if sb.getLsbD 7 = true ∨ t21 = false ∨ nu = false then 0#32
        else if sb.getLsbD 4 = true ∧ sb >>> 5 = d1c.code.setWidth 8 then (if ud = true then 7#32 else 3#32)
        else if sb.getLsbD 4 = true ∧ sb >>> 5 = d2c.code.setWidth 8 then (if ud = true then 5#32 else 1#32)
        else if hsa = true ∧ sb.getLsbD 0 = true ∧ (sb &&& 0xF#8) >>> 1 = d1c.code.setWidth 8 then
          (if ud = true then 7#32 else 3#32)
        else if hsa = true ∧ sb.getLsbD 0 = true ∧ (sb &&& 0xF#8) >>> 1 = d2c.code.setWidth 8 then
          (if ud = true then 5#32 else 1#32)
        else 0#32 }

/-- Rule R115: a press of `dir1Code` in a slot that counts flips `currentState`, an undefined one counting as Off; all
else gives None. -/
def Obligations.ToggleOnDir1FlipsTheState : Prop :=
  ∀ (s : State) (sb : Byte) (t21 nu : Bool) (d1c d2c : RockerCode) (hsa ud csv csb : Bool),
    (csv = true ∨ csb = false) →
    exec (.nxtstTgl1 ⟨sb, t21, nu⟩ d1c d2c hsa ud csv csb) s = .next { s with
      rsp :=
        if sb.getLsbD 7 = true ∨ t21 = false ∨ nu = false then 0#32
        else if (sb.getLsbD 4 = true ∧ sb >>> 5 = d1c.code.setWidth 8) ∨
            (hsa = true ∧ sb.getLsbD 0 = true ∧ (sb &&& 0xF#8) >>> 1 = d1c.code.setWidth 8) then
          (if csv = true ∧ csb = true then (if ud = true then 5#32 else 1#32) else (if ud = true then 7#32 else 3#32))
        else 0#32 }

/-- Rule R116: the same with `dir2Code`; `dir1Code` is inert. -/
def Obligations.ToggleOnDir2FlipsTheState : Prop :=
  ∀ (s : State) (sb : Byte) (t21 nu : Bool) (d1c d2c : RockerCode) (hsa ud csv csb : Bool),
    (csv = true ∨ csb = false) →
    exec (.nxtstTgl2 ⟨sb, t21, nu⟩ d1c d2c hsa ud csv csb) s = .next { s with
      rsp :=
        if sb.getLsbD 7 = true ∨ t21 = false ∨ nu = false then 0#32
        else if (sb.getLsbD 4 = true ∧ sb >>> 5 = d2c.code.setWidth 8) ∨
            (hsa = true ∧ sb.getLsbD 0 = true ∧ (sb &&& 0xF#8) >>> 1 = d2c.code.setWidth 8) then
          (if csv = true ∧ csb = true then (if ud = true then 5#32 else 1#32) else (if ud = true then 7#32 else 3#32))
        else 0#32 }

/-- Rule R119: `UD` does not enter the value; it is copied into `KIND` (bit 2) when there is a new state. -/
def Obligations.UdSelectsTheNameOnly : Prop :=
  ∀ (s : State) (t : Telegram) (d1c d2c : RockerCode) (hsa csv csb : Bool), (csv = true ∨ csb = false) →
    ∀ form : Bool → Instr,
      (form = fun ud => .nxtstRocker t d1c d2c hsa ud csv csb) ∨ (form = fun ud => .nxtstTgl1 t d1c d2c hsa ud csv csb) ∨
        (form = fun ud => .nxtstTgl2 t d1c d2c hsa ud csv csb) →
      ∃ r : Word, (r = 0#32 ∨ r = 1#32 ∨ r = 3#32) ∧ exec (form false) s = .next { s with rsp := r } ∧
        exec (form true) s = .next { s with rsp := if r = 0#32 then 0#32 else r ||| 4#32 }

/-! ## `ENCMD` -/

/-- Rules R132 and R133: the telegram of a press, for each variant and channel. -/
def Obligations.PressCommandsEncodeTheirCode : Prop :=
  ∀ (s : State) (var : Variant) (ch : Channel),
    exec (.encmdD1P var ch) s = .next { s with
      rsp := match var, ch with
        | .standard, .a => 0x00000330#32
        | .standard, .b => 0x00000370#32
        | .inverted, .a => 0x00000310#32
        | .inverted, .b => 0x00000350#32 } ∧
    exec (.encmdD2P var ch) s = .next { s with
      rsp := match var, ch with
        | .standard, .a => 0x00000310#32
        | .standard, .b => 0x00000350#32
        | .inverted, .a => 0x00000330#32
        | .inverted, .b => 0x00000370#32 }

/-- Rule R131: both release commands give the one release telegram, for every variant and channel. -/
def Obligations.ReleaseCommandsEncodeOneTelegram : Prop :=
  ∀ (s : State) (var : Variant) (ch : Channel),
    exec (.encmdD1R var ch) s = .next { s with rsp := 0x00000100#32 } ∧
    exec (.encmdD2R var ch) s = .next { s with rsp := 0x00000100#32 }

/-- 44_command_encoder.md, what the encoder cannot produce: no outbound telegram has `T21` = 0, bit 7, a secondary slot,
a press flag of 0 with `NU` = 1, or a non-zero status byte with `NU` = 0. -/
def Obligations.EncoderNeverProducesOtherTelegrams : Prop :=
  ∀ (cmd : Command) (var : Variant) (ch : Channel),
    let t := encodeCommand cmd var ch
    t.t21 = true ∧ t.sb &&& 0x8F#8 = 0#8 ∧ (t.nu = true → t.sb.getLsbD 4 = true) ∧ (t.nu = false → t.sb = 0#8)

/-- 44_command_encoder.md, the round trip through the core's words: a press command's telegram decodes to that command's
event whatever `LAST` is, and a release command's telegram to the release of the press that `LAST` names, else to
NoEvent. -/
def Obligations.CommandsRoundTripThroughTheDecoder : Prop :=
  ∀ (s : State) (var : Variant) (ch : Channel) (last : BitVec 3), last ≠ 7#3 →
    (∃ u, exec (.encmdD1P var ch) s = .next u ∧
      exec (.decevDir (telegramOf u.rsp) var ch last) u = .next { s with rsp := 1#32 }) ∧
    (∃ u, exec (.encmdD2P var ch) s = .next u ∧
      exec (.decevDir (telegramOf u.rsp) var ch last) u = .next { s with rsp := 3#32 }) ∧
    (∃ u, exec (.encmdD1R var ch) s = .next u ∧ exec (.encmdD2R var ch) s = .next u ∧
      exec (.decevDir (telegramOf u.rsp) var ch last) u =
        .next { s with rsp := if last = 1#3 then 2#32 else if last = 3#3 then 4#32 else 0#32 })

/-- 44_command_encoder.md, consequences for the other operations: a press telegram of the encoder passes `TEACH` under
Standard and fails it under Inverted, a release telegram fails both; a press of its own row's direction drives Rocker
mode On or Off, and a release telegram changes nothing. -/
def Obligations.EncodedTelegramsUnderTheOtherOperations : Prop :=
  ∀ (s : State) (var : Variant) (ch : Channel) (hsa csv csb : Bool), (csv = true ∨ csb = false) →
    exec (.teach (encodeCommand .dir1Pressed var ch) .standard) s = .next { s with rsp := 1#32 } ∧
    exec (.teach (encodeCommand .dir2Pressed var ch) .standard) s = .next { s with rsp := 1#32 } ∧
    exec (.teach (encodeCommand .dir1Released var ch) .standard) s = .next { s with rsp := 0#32 } ∧
    exec (.teach (encodeCommand .dir2Released var ch) .standard) s = .next { s with rsp := 0#32 } ∧
    (∀ cmd : Command, exec (.teach (encodeCommand cmd var ch) .inverted) s = .next { s with rsp := 0#32 }) ∧
    exec (.nxtstRocker (encodeCommand .dir1Pressed var ch) (dir1Code var ch) (dir2Code var ch) hsa false csv csb) s =
      .next { s with rsp := 3#32 } ∧
    exec (.nxtstRocker (encodeCommand .dir2Pressed var ch) (dir1Code var ch) (dir2Code var ch) hsa false csv csb) s =
      .next { s with rsp := 1#32 } ∧
    (∀ cmd : Command, cmd = .dir1Released ∨ cmd = .dir2Released →
      exec (.nxtstRocker (encodeCommand cmd var ch) (dir1Code var ch) (dir2Code var ch) hsa false csv csb) s =
        .next { s with rsp := 0#32 })

/-! ## `TEACH` -/

/-- Rule R141: valid for teach-in exactly under Standard, with `T21` set, bit 4 set and bit 7 clear. -/
def Obligations.TeachAcceptsStandardPresses : Prop :=
  ∀ (s : State) (sb : Byte) (t21 nu : Bool) (var : Variant),
    exec (.teach ⟨sb, t21, nu⟩ var) s = .next { s with
      rsp := if var = .inverted then 0#32
        else if t21 = true ∧ sb.getLsbD 4 = true ∧ sb.getLsbD 7 = false then 1#32 else 0#32 }

/-- 45_teach_in.md, fields not read: `NU`, bits 6..5 and bits 3..0 of the status byte do not matter. -/
def Obligations.TeachReadsTwoBitsOfTheByte : Prop :=
  ∀ (s : State) (sb sb' : Byte) (t21 nu nu' : Bool) (var : Variant), sb &&& 0x90#8 = sb' &&& 0x90#8 →
    exec (.teach ⟨sb, t21, nu⟩ var) s = exec (.teach ⟨sb', t21, nu'⟩ var) s

/-! ## The caller's steps -/

/-- Rules R150 to R154: a `RECV` takes both results from the context before it, writes `LE` on the four directional
events only and `CS` on a new state only, passes on an event that is not NoEvent and a new state, and leaves the
configuration and every other channel alone. The list `emitted` (assumption log 5), the event listed before the new
state (assumption log 15) and the ports left alone (assumption log 6) are the model's, each a DESIGN CHOICE. -/
def Obligations.RecvHandlesOneTelegram : Prop :=
  ∀ (s : State) (i : Nat) (t : Telegram) (rest : List CallerAction), Store.wf s.store →
    s.inbox = .recv i t :: rest → i < Config.nch → (s.context i).configured = true →
    let c := s.context i
    let ev := if c.cfg.act = true then decevAct t else decevDir t c.cfg.var c.cfg.ch c.le
    let ns := nextState t (directionsFor c.cfg.var c.cfg.ch).1 (directionsFor c.cfg.var c.cfg.ch).2 c.cfg.hsa
      c.cfg.mode c.cs
    ∃ u, step s = .next u ∧
      (u.context i).configured = true ∧ (u.context i).cfg = c.cfg ∧
      (u.context i).le = (if 1 ≤ ev.code.toNat ∧ ev.code.toNat ≤ 4 then ev.code else c.le) ∧
      (u.context i).cs = (match ns with | some v => some v | none => c.cs) ∧
      (∀ j, j ≠ i → u.context j = s.context j) ∧
      u.emitted = s.emitted ++ (if ev = .noEvent then [] else [.event i ev]) ++
        (match ns with | some v => [.newState i c.cfg.ud v] | none => []) ∧
      u.req = s.req ∧ u.rsp = s.rsp ∧ u.inbox = rest ∧ Store.wf u.store

/-- 46_channel_sequencer.md: the caller's procedures are the core's. The event and the new state of a `RECV`, and the
telegram of a `SEND`, are what the core answers to the request words assembled from the channel's context, for every
context whose `LE` is an event code (7 is none, rule R53, and no step writes it). -/
def Obligations.RecvAndSendAreCoreRequests : Prop :=
  ∀ (c : Context) (t : Telegram) (cmd : Command), c.le ≠ 7#3 →
    blockResponse (encode (recvDecev c t)) = eventResponse (contextEvent c t) ∧
    blockResponse (encode (recvNxtst c t)) = stateResponse c.cfg.ud (contextState c t) ∧
    blockResponse (encode (sendEncmd c cmd)) = telegramResponse (encodeCommand cmd c.cfg.var c.cfg.ch)

/-- Rule R19: no step takes `CS` of a channel from `Some` to None, but for the creation of the channel anew; and a `RECV`
for which `NXTST` returns None leaves `CS` as it was. -/
def Obligations.StateNeverReturnsToNone : Prop :=
  ∀ (s t : State) (i : Nat), Store.wf s.store → step s = .next t →
    ((∀ cfg rest, s.inbox ≠ .configure i cfg :: rest) →
      (s.context i).cs.isSome = true → (t.context i).cs.isSome = true) ∧
    (∀ tg rest, s.inbox = .recv i tg :: rest → contextState (s.context i) tg = none →
      (t.context i).cs = (s.context i).cs)

/-- Rule R188: no step changes `CFG[i]` of a channel, or unmakes it, but the one that writes `CFG[i]`; that one ends
the channel and creates a new one, with a fresh context at the reset values, and touches nothing else. That it does so
also where the record written equals the old one is the model's (DESIGN CHOICE, assumption log 13). -/
def Obligations.ConfigurationIsConstantPerChannel : Prop :=
  (∀ (s t : State) (i : Nat), Store.wf s.store → step s = .next t →
    (∀ cfg rest, s.inbox ≠ .configure i cfg :: rest) →
    (t.context i).cfg = (s.context i).cfg ∧ (t.context i).configured = (s.context i).configured) ∧
  (∀ (s : State) (i : Nat) (cfg : Cfg) (rest : List CallerAction), Store.wf s.store →
    s.inbox = .configure i cfg :: rest → i < Config.nch →
    ∃ u, step s = .next u ∧ u.context i = { configured := true, cfg := cfg, cs := none, le := 0#3 } ∧
      (∀ j, j ≠ i → u.context j = s.context j) ∧ u.req = s.req ∧ u.rsp = s.rsp ∧ u.emitted = s.emitted ∧
      u.inbox = rest)

/-- 10_state.md section 2: two configured channels never share a context. A step writes no context but that of the
channel its action names. -/
def Obligations.OtherChannelsAreUntouched : Prop :=
  ∀ (s t : State) (a : CallerAction) (rest : List CallerAction) (i : Nat), s.inbox = a :: rest →
    CallerAction.writes a ≠ some i → step s = .next t → t.context i = s.context i

/-- Rule R155: a `SEND` passes on the telegram of its command under the channel's variant and channel, and writes no
context. That it writes no port either (assumption log 6) and that the telegram is listed in `emitted` (assumption log
5) are the model's, each a DESIGN CHOICE. -/
def Obligations.SendWritesNoContext : Prop :=
  ∀ (s : State) (i : Nat) (cmd : Command) (rest : List CallerAction), s.inbox = .send i cmd :: rest →
    i < Config.nch → (s.context i).configured = true →
    step s = .next { s with
      inbox := rest
      emitted := s.emitted ++ [.telegram i (encodeCommand cmd (s.context i).cfg.var (s.context i).cfg.ch)] }

/-- The model's stops, all the caller's: a `RECV` or `SEND` for a channel whose `CFG` was never written is refused by
name (93_implementation_defined.md U12), and an identifier that no context exists for faults (20_memory.md section 1,
decision D26). The two are told apart by the identifier first. -/
def Obligations.UnpreparedActionsStopByName : Prop :=
  ∀ (s : State) (i : Nat) (t t' : Telegram) (cmd : Command) (cfg : Cfg) (rest : List CallerAction),
    (i < Config.nch → (s.context i).configured = false →
      step { s with inbox := .recv i t :: rest } = .refused (.channelNotConfigured i) ∧
      step { s with inbox := .recvOverlap i t t' :: rest } = .refused (.channelNotConfigured i) ∧
      step { s with inbox := .send i cmd :: rest } = .refused (.channelNotConfigured i)) ∧
    (Config.nch ≤ i →
      step { s with inbox := .recv i t :: rest } = .fault (.noSuchChannel i) ∧
      step { s with inbox := .recvOverlap i t t' :: rest } = .fault (.noSuchChannel i) ∧
      step { s with inbox := .send i cmd :: rest } = .fault (.noSuchChannel i) ∧
      step { s with inbox := .configure i cfg :: rest } = .fault (.noSuchChannel i))

/-- A step stops exactly where the caller has not kept rules R28 and R187: with an action waiting it answers a next
state if and only if the caller is prepared for it. The stops are the model's (DESIGN CHOICE, assumption log 10; U12
says to refuse an unconfigured channel). With no action waiting every state steps (DEDUCED, assumption log 9). -/
def Obligations.StepStopsOnlyUnprepared : Prop :=
  ∀ s : State, (s.inbox = [] → ∃ t, step s = .next t) ∧
    ∀ a rest, s.inbox = a :: rest → (s.allows a ↔ ∃ t, step s = .next t)

/-- A caller that names existing channels and configures each before it uses it is never stopped: the whole list of its
actions is handled, from every state whose store is in canonical form. -/
def Obligations.PreparedRunsAreNeverStopped : Prop :=
  ∀ (s : State) (done : List Nat), Store.wf s.store → (∀ i ∈ done, (s.context i).configured = true) →
    prepared done s.inbox → ∃ t, core.run s.inbox.length s = .next t ∧ t.inbox = [] ∧ Store.wf t.store

/-- Rule R33: the caller's actions for different channels are unordered, and so are those that are for no channel. Of
two actions that the caller is prepared for, not both for one channel and not both requests, either order leaves equal
stores and equal ports and passes on the same for every channel. That the ports are equal beside a request rests on
`RECV`, `SEND` and `DIRS` leaving them alone, the model's DESIGN CHOICE (assumption log 6). -/
def Obligations.ActionsOfDifferentChannelsCommute : Prop :=
  ∀ (s : State) (a b : CallerAction), Store.wf s.store → s.allows a → s.allows b →
    (∀ i, a.channel = some i → b.channel ≠ some i) → (∀ w, a.word = some w → b.word = none) →
    ∃ u v, core.run 2 { s with inbox := [a, b] } = .next u ∧ core.run 2 { s with inbox := [b, a] } = .next v ∧
      u.store = v.store ∧ u.req = v.req ∧ u.rsp = v.rsp ∧ ∀ k, emittedFor k u.emitted = emittedFor k v.emitted

/-- Rule R189: two presses of the toggling direction, handled one after the other, toggle twice; handled so that both
read the context before either writes it, they toggle once. -/
def Obligations.OverlapLosesAToggle : Prop :=
  ∀ (s : State) (i : Nat) (t : Telegram), Store.wf s.store → i < Config.nch → (s.context i).configured = true →
    t.t21 = true → t.nu = true → t.sb.getLsbD 7 = false → t.sb.getLsbD 4 = true →
    ((s.context i).cfg.mode = .toggleOnDir1 ∧
        t.sb >>> 5 = (dir1Code (s.context i).cfg.var (s.context i).cfg.ch).code.setWidth 8 ∨
      (s.context i).cfg.mode = .toggleOnDir2 ∧
        t.sb >>> 5 = (dir2Code (s.context i).cfg.var (s.context i).cfg.ch).code.setWidth 8) →
    (∃ u, core.run 2 { s with inbox := [.recv i t, .recv i t] } = .next u ∧
      (u.context i).cs = some ((s.context i).cs.getD false)) ∧
    (∃ v, step { s with inbox := [.recvOverlap i t t] } = .next v ∧
      (v.context i).cs = some (!(s.context i).cs.getD false))

/-- 46_channel_sequencer.md, after `LE`'s rule: one press yields at most one release event. Along any list of telegrams
a directional channel emits no more `…Released` events for release telegrams than `…Pressed` events, one more if its
context began with a press not yet released. -/
def Obligations.OnePressYieldsAtMostOneRelease : Prop :=
  ∀ (c : Context) (ts : List Telegram), c.cfg.act = false →
    releasedCount c ts ≤ pressedCount c ts + (if c.le = 1#3 ∨ c.le = 3#3 then 1 else 0)

/-- 46_channel_sequencer.md and 70_reset_and_hazards.md section 3: telegrams that mean nothing to a directional channel
between a press and a release do not make the release undecodable; the release is attributed to the last press,
whatever its status byte says below bit 7. -/
def Obligations.ForeignTelegramsKeepTheLastPress : Prop :=
  ∀ (c : Context) (ts : List Telegram) (t : Telegram), c.cfg.act = false →
    (∀ x ∈ ts, contextEvent c x = .noEvent) → t.t21 = true → t.nu = false → t.sb.getLsbD 7 = false →
    (c.le = 1#3 → contextEvent (contextRun c ts) t = .dir1Released) ∧
    (c.le = 3#3 → contextEvent (contextRun c ts) t = .dir2Released)

/-- The round trip of 44_command_encoder.md along a sequence: a press and then the release of the same direction, sent
for one channel and received for a directional channel (not an action channel, which reports no directional event) of
the same variant and rocker, arrive as those two events, and no context but the receiver's is written. -/
def Obligations.SentCommandsArriveAsTheirEvents : Prop :=
  ∀ (s : State) (i j : Nat), Store.wf s.store → i < Config.nch → j < Config.nch →
    (s.context i).configured = true → (s.context j).configured = true →
    (s.context i).cfg.var = (s.context j).cfg.var → (s.context i).cfg.ch = (s.context j).cfg.ch →
    (s.context j).cfg.act = false →
    let out := fun cmd => encodeCommand cmd (s.context i).cfg.var (s.context i).cfg.ch
    (∃ u, core.run 4 { s with inbox := [.send i .dir1Pressed, .recv j (out .dir1Pressed), .send i .dir1Released,
          .recv j (out .dir1Released)] } = .next u ∧
      eventsFor j u.emitted = eventsFor j s.emitted ++ [.dir1Pressed, .dir1Released] ∧
      (u.context j).le = 2#3 ∧ ∀ k, k ≠ j → u.context k = s.context k) ∧
    (∃ u, core.run 4 { s with inbox := [.send i .dir2Pressed, .recv j (out .dir2Pressed), .send i .dir2Released,
          .recv j (out .dir2Released)] } = .next u ∧
      eventsFor j u.emitted = eventsFor j s.emitted ++ [.dir2Pressed, .dir2Released] ∧
      (u.context j).le = 4#3 ∧ ∀ k, k ≠ j → u.context k = s.context k)

/-! ## Tags -/

/-- Rule R64: the nine composite action strings. -/
def Obligations.ActionStringsJoinTwoTokens : Prop :=
  eventTag (.action .none .none) = "-|-" ∧ eventTag (.action .none .dir1) = "-|Dir1" ∧
  eventTag (.action .none .dir2) = "-|Dir2" ∧ eventTag (.action .dir1 .none) = "Dir1|-" ∧
  eventTag (.action .dir1 .dir1) = "Dir1|Dir1" ∧ eventTag (.action .dir1 .dir2) = "Dir1|Dir2" ∧
  eventTag (.action .dir2 .none) = "Dir2|-" ∧ eventTag (.action .dir2 .dir1) = "Dir2|Dir1" ∧
  eventTag (.action .dir2 .dir2) = "Dir2|Dir2"

/-- The tags of the commands are one-to-one with their codes, and a tag outside the four names no command
(30_encoding.md section 7, decision D28). -/
def Obligations.CommandTagsAreOneToOne : Prop :=
  (∀ c : Command, commandOfTag (commandTag c) = some c) ∧
  (∀ (tag : String) (c : Command), commandOfTag tag = some c → tag = commandTag c)
end

