-- ==== Sys2Proof/Laws/Codec.lean ====
section
/-!
SUPPORT. The small facts of the codec: each enumeration and its number name each other, the numbers of the direction
table, and the bits of a word built from placed fields.
-/

namespace Sys2Proof

@[simp] theorem Variant.ofBit_bit (v : Variant) : Variant.ofBit v.bit = v := by cases v <;> decide
@[simp] theorem Channel.ofBit_bit (c : Channel) : Channel.ofBit c.bit = c := by cases c <;> decide
@[simp] theorem RockerCode.ofCode_code (c : RockerCode) : RockerCode.ofCode c.code = c := by cases c <;> decide

theorem Variant.bit_ofBit (v : BitVec 1) : (Variant.ofBit v).bit = v := by
  revert v; decide
theorem Channel.bit_ofBit (v : BitVec 1) : (Channel.ofBit v).bit = v := by
  revert v; decide
theorem RockerCode.code_ofCode (v : BitVec 2) : (RockerCode.ofCode v).code = v := by
  revert v; decide

/-- Bit `k` of a placed field is the field's bit `k - lo`, where that is one of the word's. -/
theorem getLsbD_place {n : Nat} (v : BitVec n) (lo k : Nat) :
    (place v lo).getLsbD k = (decide (k < 32) && (decide (lo ≤ k) && v.getLsbD (k - lo))) := by
  unfold place
  by_cases h : k < 32
  · by_cases h2 : lo ≤ k
    · simp [h, h2]
    · have : k < lo := by omega
      simp [this, h2]
  · simp [h]

/-- Bit `k` of a field read from a word is the word's bit `lo + k`. -/
theorem getLsbD_bits (w : Word) (lo n k : Nat) : (bits w lo n).getLsbD k = (decide (k < n) && w.getLsbD (lo + k)) := by
  simp [bits]

end Sys2Proof
end

