-- ==== Sys2Proof/Laws/State.lean ====
section
/-! SUPPORT. One lemma per field of the state per update, so that no later proof unfolds a record update. -/

namespace Sys2Proof.Machine

@[simp] theorem State.respond_req (s : State) (r : Word) : (s.respond r).req = s.req := rfl
@[simp] theorem State.respond_rsp (s : State) (r : Word) : (s.respond r).rsp = r := rfl
@[simp] theorem State.respond_store (s : State) (r : Word) : (s.respond r).store = s.store := rfl
@[simp] theorem State.respond_inbox (s : State) (r : Word) : (s.respond r).inbox = s.inbox := rfl
@[simp] theorem State.respond_emitted (s : State) (r : Word) : (s.respond r).emitted = s.emitted := rfl

@[simp] theorem State.drive_req (s : State) (w : Word) : (s.drive w).req = w := rfl
@[simp] theorem State.drive_rsp (s : State) (w : Word) : (s.drive w).rsp = s.rsp := rfl
@[simp] theorem State.drive_store (s : State) (w : Word) : (s.drive w).store = s.store := rfl
@[simp] theorem State.drive_inbox (s : State) (w : Word) : (s.drive w).inbox = s.inbox := rfl
@[simp] theorem State.drive_emitted (s : State) (w : Word) : (s.drive w).emitted = s.emitted := rfl

@[simp] theorem State.present_req (s : State) (w : Word) : (s.present w).req = w := rfl
@[simp] theorem State.present_rsp (s : State) (w : Word) : (s.present w).rsp = s.rsp := rfl
@[simp] theorem State.present_store (s : State) (w : Word) : (s.present w).store = s.store := rfl
@[simp] theorem State.present_inbox (s : State) (w : Word) : (s.present w).inbox = [] := rfl
@[simp] theorem State.present_emitted (s : State) (w : Word) : (s.present w).emitted = s.emitted := rfl

@[simp] theorem State.setContext_req (s : State) (i : Nat) (c : Context) : (s.setContext i c).req = s.req := rfl
@[simp] theorem State.setContext_rsp (s : State) (i : Nat) (c : Context) : (s.setContext i c).rsp = s.rsp := rfl
@[simp] theorem State.setContext_store (s : State) (i : Nat) (c : Context) : (s.setContext i c).store = Store.write s.store i c := rfl
@[simp] theorem State.setContext_inbox (s : State) (i : Nat) (c : Context) : (s.setContext i c).inbox = s.inbox := rfl
@[simp] theorem State.setContext_emitted (s : State) (i : Nat) (c : Context) : (s.setContext i c).emitted = s.emitted := rfl

@[simp] theorem State.emit_req (s : State) (es : List Emission) : (s.emit es).req = s.req := rfl
@[simp] theorem State.emit_rsp (s : State) (es : List Emission) : (s.emit es).rsp = s.rsp := rfl
@[simp] theorem State.emit_store (s : State) (es : List Emission) : (s.emit es).store = s.store := rfl
@[simp] theorem State.emit_inbox (s : State) (es : List Emission) : (s.emit es).inbox = s.inbox := rfl
@[simp] theorem State.emit_emitted (s : State) (es : List Emission) : (s.emit es).emitted = s.emitted ++ es := rfl

@[simp] theorem State.respond_context (s : State) (r : Word) (i : Nat) : (s.respond r).context i = s.context i := rfl
@[simp] theorem State.drive_context (s : State) (w : Word) (i : Nat) : (s.drive w).context i = s.context i := rfl
@[simp] theorem State.emit_context (s : State) (es : List Emission) (i : Nat) : (s.emit es).context i = s.context i := rfl

/-- A later response replaces an earlier one: nothing of it is kept (rule R13). -/
@[simp] theorem State.respond_respond (s : State) (r1 r2 : Word) : (s.respond r1).respond r2 = s.respond r2 := rfl

/-- Emissions join in order. -/
@[simp] theorem State.emit_emit (s : State) (es fs : List Emission) : (s.emit es).emit fs = s.emit (es ++ fs) := by
  simp [State.emit, List.append_assoc]

end Sys2Proof.Machine
end

