-- ==== Sys2Proof/Laws/Store.lean ====
section
/-!
SUPPORT. The context store: a read after a write, the canonical form kept by every write, and that stores in canonical
form which read alike are equal.
-/

namespace Sys2Proof.Machine

/-- Every identifier an entry lists lies above a bound. -/
abbrev Store.above (st : Store) (k : Nat) : Prop := ∀ x ∈ st, k < x.1

theorem Store.pairwise_iff_above (j : Nat) (d : Context) (rest : Store) :
    List.Pairwise (fun x y : Nat × Context => x.1 < y.1) ((j, d) :: rest) ↔
      Store.above rest j ∧ List.Pairwise (fun x y : Nat × Context => x.1 < y.1) rest := by
  simp [Store.above, List.pairwise_cons]

/-- An identifier that no entry lists reads as the reset context (rule R20). -/
theorem Store.read_of_above {st : Store} {k i : Nat} (h : Store.above st k) (hi : i ≤ k) :
    Store.read st i = Context.reset := by
  induction st with
  | nil => rfl
  | cons x rest ih =>
    obtain ⟨j, d⟩ := x
    have hj : k < j := h (j, d) (by simp)
    have hr : Store.above rest k := fun y hy => h y (by simp [hy])
    have : i ≠ j := by omega
    simp [Store.read, this, ih hr]

theorem Store.read_cons_same (i : Nat) (c : Context) {rest : Store} (h : Store.above rest i) :
    Store.read (Store.cons i c rest) i = c := by
  unfold Store.cons
  split
  · rename_i hc
    rw [Store.read_of_above h (Nat.le_refl i), hc]
  · simp [Store.read]

theorem Store.read_cons_other {i j : Nat} (c : Context) (rest : Store) (h : j ≠ i) :
    Store.read (Store.cons i c rest) j = Store.read rest j := by
  unfold Store.cons
  split
  · rfl
  · simp [Store.read, h]

/-- A read after a write to the same channel gives the context written. -/
theorem Store.read_write_same {st : Store} (i : Nat) (c : Context)
    (h : st.Pairwise (fun x y => x.1 < y.1)) : Store.read (Store.write st i c) i = c := by
  induction st with
  | nil => exact Store.read_cons_same i c (by simp [Store.above])
  | cons x rest ih =>
    obtain ⟨j, d⟩ := x
    obtain ⟨ha, hp⟩ := (Store.pairwise_iff_above j d rest).1 h
    unfold Store.write
    split
    · rename_i hij
      refine Store.read_cons_same i c ?_
      intro y hy
      rcases List.mem_cons.1 hy with rfl | hy
      · exact hij
      · exact Nat.lt_trans hij (ha y hy)
    · split
      · rename_i hij
        subst hij
        exact Store.read_cons_same _ c ha
      · rename_i hij
        simp [Store.read, hij, ih hp]

/-- A write leaves every other channel's context alone (rule R18). -/
theorem Store.read_write_other (st : Store) {i j : Nat} (c : Context) (h : j ≠ i) :
    Store.read (Store.write st i c) j = Store.read st j := by
  induction st with
  | nil => exact Store.read_cons_other c [] h
  | cons x rest ih =>
    obtain ⟨k, d⟩ := x
    unfold Store.write
    split
    · exact Store.read_cons_other c _ h
    · split
      · rename_i hik
        rw [Store.read_cons_other c rest h]
        have : j ≠ k := fun e => h (e.trans hik.symm)
        simp [Store.read, this]
      · simp [Store.read, ih]

/-- What a write lists: an entry that was listed, or the one written. -/
theorem Store.mem_write {st : Store} {i : Nat} {c : Context} {x : Nat × Context}
    (h : x ∈ Store.write st i c) : x ∈ st ∨ (x = (i, c) ∧ c ≠ Context.reset) := by
  have hcons : ∀ {rest : Store}, x ∈ Store.cons i c rest → x ∈ rest ∨ (x = (i, c) ∧ c ≠ Context.reset) := by
    intro rest hx
    unfold Store.cons at hx
    split at hx
    · exact .inl hx
    · rename_i hc
      rcases List.mem_cons.1 hx with rfl | hx
      · exact .inr ⟨rfl, hc⟩
      · exact .inl hx
  induction st with
  | nil => exact hcons h
  | cons y rest ih =>
    obtain ⟨j, d⟩ := y
    unfold Store.write at h
    split at h
    · exact hcons h
    · split at h
      · rcases hcons h with h | h
        · exact .inl (by simp [h])
        · exact .inr h
      · rcases List.mem_cons.1 h with rfl | h
        · exact .inl (by simp)
        · rcases ih h with h | h
          · exact .inl (by simp [h])
          · exact .inr h

theorem Store.pairwise_cons_above {i : Nat} (c : Context) {rest : Store} (ha : Store.above rest i)
    (hp : rest.Pairwise (fun x y => x.1 < y.1)) : (Store.cons i c rest).Pairwise (fun x y => x.1 < y.1) := by
  unfold Store.cons
  split
  · exact hp
  · exact (Store.pairwise_iff_above i c rest).2 ⟨ha, hp⟩

/-- A write keeps the identifiers strictly rising. -/
theorem Store.pairwise_write {st : Store} (i : Nat) (c : Context)
    (h : st.Pairwise (fun x y => x.1 < y.1)) : (Store.write st i c).Pairwise (fun x y => x.1 < y.1) := by
  induction st with
  | nil => exact Store.pairwise_cons_above c (by simp [Store.above]) List.Pairwise.nil
  | cons y rest ih =>
    obtain ⟨j, d⟩ := y
    obtain ⟨ha, hp⟩ := (Store.pairwise_iff_above j d rest).1 h
    unfold Store.write
    split
    · rename_i hij
      refine Store.pairwise_cons_above c ?_ h
      intro y hy
      rcases List.mem_cons.1 hy with rfl | hy
      · exact hij
      · exact Nat.lt_trans hij (ha y hy)
    · split
      · rename_i hij
        subst hij
        exact Store.pairwise_cons_above c ha hp
      · rename_i hlt hne
        refine (Store.pairwise_iff_above j d _).2 ⟨?_, ih hp⟩
        intro y hy
        rcases Store.mem_write hy with hy | ⟨rfl, _⟩
        · exact ha y hy
        · show j < i
          omega

/-- A write to an existing channel keeps the canonical form. -/
theorem Store.write_wf {st : Store} {i : Nat} (c : Context) (h : Store.wf st) (hi : i < Config.nch) :
    Store.wf (Store.write st i c) := by
  refine ⟨Store.pairwise_write i c h.1, ?_⟩
  intro x hx
  rcases Store.mem_write hx with hx | ⟨rfl, hc⟩
  · exact h.2 x hx
  · exact ⟨hi, hc⟩

/-- The empty store, that of reset, is in canonical form. -/
theorem Store.nil_wf : Store.wf [] := ⟨List.Pairwise.nil, by simp⟩

/-- A listed entry is what its identifier reads as. -/
theorem Store.read_of_mem {st : Store} (h : st.Pairwise (fun x y => x.1 < y.1)) {x : Nat × Context} (hx : x ∈ st) :
    Store.read st x.1 = x.2 := by
  induction st with
  | nil => simp at hx
  | cons y rest ih =>
    obtain ⟨j, d⟩ := y
    obtain ⟨ha, hp⟩ := (Store.pairwise_iff_above j d rest).1 h
    rcases List.mem_cons.1 hx with rfl | hx
    · simp [Store.read]
    · have : x.1 ≠ j := by have := ha x hx; omega
      simp [Store.read, this, ih hp hx]

/-- What an identifier reads as is listed, or is the reset context. -/
theorem Store.mem_of_read {st : Store} {i : Nat} (h : Store.read st i ≠ Context.reset) : (i, Store.read st i) ∈ st := by
  induction st with
  | nil => exact absurd rfl h
  | cons y rest ih =>
    obtain ⟨j, d⟩ := y
    by_cases hij : i = j
    · subst hij; simp [Store.read]
    · simp only [Store.read, hij, if_false] at h ⊢
      exact List.mem_cons_of_mem _ (ih h)

/-- Stores in canonical form that read alike are equal: equal stores are equal data. -/
theorem Store.ext_of_read {st su : Store} (hs : Store.wf st) (hu : Store.wf su)
    (h : ∀ i, Store.read st i = Store.read su i) : st = su := by
  have key : ∀ {a b : Store}, Store.wf a → Store.wf b → (∀ i, Store.read a i = Store.read b i) → a ⊆ b := by
    intro a b ha hb hr x hx
    have h1 := Store.read_of_mem ha.1 hx
    have h2 : Store.read b x.1 ≠ Context.reset := by rw [← hr, h1]; exact (ha.2 x hx).2
    have h3 := Store.mem_of_read h2
    rwa [← hr, h1] at h3
  have nodup : ∀ {a : Store}, Store.wf a → a.Nodup := fun ha => ha.1.imp fun hlt he => by
    rw [he] at hlt; exact Nat.lt_irrefl _ hlt
  have hperm : st.Perm su :=
    (List.perm_ext_iff_of_nodup (nodup hs) (nodup hu)).2 fun x =>
      ⟨fun hx => key hs hu h hx, fun hx => key hu hs (fun i => (h i).symm) hx⟩
  exact hperm.eq_of_pairwise (fun a b _ _ hab hba => absurd (Nat.lt_trans hab hba) (Nat.lt_irrefl _)) hs.1 hu.1

/-- The context of a channel after a write to it. -/
theorem State.context_setContext_same {s : State} {i : Nat} (c : Context) (h : Store.wf s.store) :
    (s.setContext i c).context i = c := Store.read_write_same i c h.1

/-- The context of a channel after a write to another one. -/
theorem State.context_setContext_other (s : State) {i j : Nat} (c : Context) (h : j ≠ i) :
    (s.setContext i c).context j = s.context j := Store.read_write_other s.store c h

end Sys2Proof.Machine
end

