-- ==== Sys2Proof/Laws/Ops.lean ====
section
/-!
SUPPORT. Everything each shared operation, each action of the caller and a step can do, said once: later proofs cite
these instead of unfolding the definitions.
-/

namespace Sys2Proof.Machine

/-- The meaning of every request is its response at the output port, and nothing else changes (rule R10). -/
theorem exec_eq_respond (i : Instr) (s : State) : exec i s = .next (s.respond (responseOf i)) := by
  cases i <;> rfl

/-- The core on its input port answers the response to the word there, valid or not (rules R41, R57). -/
theorem runRequest_eq_respond (s : State) : runRequest s = .next (s.respond (blockResponse s.req)) := by
  unfold runRequest blockResponse State.fetch
  cases decode s.req with
  | ok i => exact exec_eq_respond i s
  | error e => rfl

/-- Reaching a channel answers next only for an identifier that exists. -/
theorem State.onChannel_next {s t : State} {i : Nat} {k : Context → Host.Outcome State Fault Refusal}
    (h : s.onChannel i k = .next t) : i < Config.nch ∧ k (s.context i) = .next t := by
  unfold State.onChannel at h
  split at h
  · exact ⟨‹_›, h⟩
  · cases h

/-- Reaching a configured channel answers next only for an existing identifier whose `CFG` was written. -/
theorem State.onConfigured_next {s t : State} {i : Nat} {k : Context → Host.Outcome State Fault Refusal}
    (h : s.onConfigured i k = .next t) :
    i < Config.nch ∧ (s.context i).configured = true ∧ k (s.context i) = .next t := by
  obtain ⟨hi, h⟩ := State.onChannel_next h
  split at h
  · exact ⟨hi, ‹_›, h⟩
  · cases h

theorem State.onChannel_of_lt {s : State} {i : Nat} (hi : i < Config.nch)
    (k : Context → Host.Outcome State Fault Refusal) : s.onChannel i k = k (s.context i) := by
  simp [State.onChannel, hi]

theorem State.onConfigured_of_configured {s : State} {i : Nat} (hi : i < Config.nch)
    (hc : (s.context i).configured = true) (k : Context → Host.Outcome State Fault Refusal) :
    s.onConfigured i k = k (s.context i) := by
  simp [State.onConfigured, State.onChannel_of_lt hi, hc]

/-- A `RECV` for a configured channel completes. -/
theorem recv_of_configured {s : State} {i : Nat} (hi : i < Config.nch) (hc : (s.context i).configured = true)
    (t : Telegram) :
    recv i t s = .next ((s.setContext i (contextAfter (s.context i) t)).emit (handlingEmissions i (s.context i) t)) :=
  State.onConfigured_of_configured hi hc _

/-- Two overlapping handlings for a configured channel complete. -/
theorem recvOverlap_of_configured {s : State} {i : Nat} (hi : i < Config.nch)
    (hc : (s.context i).configured = true) (t1 t2 : Telegram) :
    recvOverlap i t1 t2 s = .next ((s.setContext i (contextAfterOverlap (s.context i) t1 t2)).emit
      (handlingEmissions i (s.context i) t1 ++ handlingEmissions i (s.context i) t2)) :=
  State.onConfigured_of_configured hi hc _

/-- A `SEND` for a configured channel completes. -/
theorem send_of_configured {s : State} {i : Nat} (hi : i < Config.nch) (hc : (s.context i).configured = true)
    (cmd : Command) :
    send i cmd s = .next (s.emit [.telegram i (encodeCommand cmd (s.context i).cfg.var (s.context i).cfg.ch)]) :=
  State.onConfigured_of_configured hi hc _

/-- Writing `CFG[i]` of a channel that exists completes. -/
theorem configure_of_lt {s : State} {i : Nat} (hi : i < Config.nch) (cfg : Cfg) :
    configure i cfg s =
      .next (s.setContext i { configured := true, cfg := cfg, cs := Context.reset.cs, le := Context.reset.le }) :=
  State.onChannel_of_lt hi _

/-- What a `RECV` can do (rules R150 to R154). -/
theorem recv_next {s t : State} {i : Nat} {tg : Telegram} (h : recv i tg s = .next t) :
    i < Config.nch ∧ (s.context i).configured = true ∧
      t = (s.setContext i (contextAfter (s.context i) tg)).emit (handlingEmissions i (s.context i) tg) := by
  obtain ⟨hi, hc, h⟩ := State.onConfigured_next h
  exact ⟨hi, hc, (Host.Outcome.next.inj h).symm⟩

/-- What two overlapping handlings can do (rule R189). -/
theorem recvOverlap_next {s t : State} {i : Nat} {t1 t2 : Telegram} (h : recvOverlap i t1 t2 s = .next t) :
    i < Config.nch ∧ (s.context i).configured = true ∧
      t = (s.setContext i (contextAfterOverlap (s.context i) t1 t2)).emit
        (handlingEmissions i (s.context i) t1 ++ handlingEmissions i (s.context i) t2) := by
  obtain ⟨hi, hc, h⟩ := State.onConfigured_next h
  exact ⟨hi, hc, (Host.Outcome.next.inj h).symm⟩

/-- What a `SEND` can do (rule R155). -/
theorem send_next {s t : State} {i : Nat} {cmd : Command} (h : send i cmd s = .next t) :
    i < Config.nch ∧ (s.context i).configured = true ∧
      t = s.emit [.telegram i (encodeCommand cmd (s.context i).cfg.var (s.context i).cfg.ch)] := by
  obtain ⟨hi, hc, h⟩ := State.onConfigured_next h
  exact ⟨hi, hc, (Host.Outcome.next.inj h).symm⟩

/-- What writing `CFG[i]` can do (rules R187, R188). -/
theorem configure_next {s t : State} {i : Nat} {cfg : Cfg} (h : configure i cfg s = .next t) :
    i < Config.nch ∧
      t = s.setContext i { configured := true, cfg := cfg, cs := Context.reset.cs, le := Context.reset.le } := by
  obtain ⟨hi, h⟩ := State.onChannel_next h
  exact ⟨hi, (Host.Outcome.next.inj h).symm⟩

/-- What one action of the caller can do: the ports change under a request only, the store under the three actions that
write a context, what was passed on only grows. -/
theorem handle_next {s t : State} {a : CallerAction} (h : handle a s = .next t) :
    (∃ w, a = .request w ∧ t = (s.drive w).respond (blockResponse w)) ∨
    (∃ var ch, a = .dirs var ch ∧ t = s.emit [.codes (dir1Code var ch) (dir2Code var ch)]) ∨
    (∃ i cmd, a = .send i cmd ∧ i < Config.nch ∧ (s.context i).configured = true ∧
      t = s.emit [.telegram i (encodeCommand cmd (s.context i).cfg.var (s.context i).cfg.ch)]) ∨
    (∃ i cfg, a = .configure i cfg ∧ i < Config.nch ∧
      t = s.setContext i { configured := true, cfg := cfg, cs := Context.reset.cs, le := Context.reset.le }) ∨
    (∃ i tg, a = .recv i tg ∧ i < Config.nch ∧ (s.context i).configured = true ∧
      t = (s.setContext i (contextAfter (s.context i) tg)).emit (handlingEmissions i (s.context i) tg)) ∨
    (∃ i t1 t2, a = .recvOverlap i t1 t2 ∧ i < Config.nch ∧ (s.context i).configured = true ∧
      t = (s.setContext i (contextAfterOverlap (s.context i) t1 t2)).emit
        (handlingEmissions i (s.context i) t1 ++ handlingEmissions i (s.context i) t2)) := by
  cases a with
  | request w =>
    refine .inl ⟨w, rfl, ?_⟩
    have h' : runRequest (s.drive w) = .next t := h
    rw [runRequest_eq_respond] at h'
    exact (Host.Outcome.next.inj h').symm
  | dirs var ch => exact .inr (.inl ⟨var, ch, rfl, (Host.Outcome.next.inj h).symm⟩)
  | send i cmd => exact .inr (.inr (.inl ⟨i, cmd, rfl, send_next h⟩))
  | configure i cfg => exact .inr (.inr (.inr (.inl ⟨i, cfg, rfl, configure_next h⟩)))
  | recv i tg => exact .inr (.inr (.inr (.inr (.inl ⟨i, tg, rfl, recv_next h⟩))))
  | recvOverlap i t1 t2 => exact .inr (.inr (.inr (.inr (.inr ⟨i, t1, t2, rfl, recvOverlap_next h⟩))))

/-- What one step can do: with no action waiting the core answers its input port, else the next action is handled and
leaves the list. -/
theorem step_next {s t : State} (h : step s = .next t) :
    (s.inbox = [] ∧ t = s.respond (blockResponse s.req)) ∨
    (∃ a rest, s.inbox = a :: rest ∧ handle a { s with inbox := rest } = .next t) := by
  unfold step at h
  split at h
  · rename_i hi
    rw [runRequest_eq_respond] at h
    exact .inl ⟨hi, (Host.Outcome.next.inj h).symm⟩
  · rename_i a rest hi
    exact .inr ⟨a, rest, hi, h⟩

/-- A step with an action waiting handles it. -/
theorem step_cons {s : State} {a : CallerAction} {rest : List CallerAction} (h : s.inbox = a :: rest) :
    step s = handle a { s with inbox := rest } := by
  unfold step
  rw [h]

end Sys2Proof.Machine
end

