-- ==== Sys2Proof/Laws/PerInstr.lean ====
section
/-!
SUPPORT. The per-instruction family `RowMatch`: the request word of every form is selected by that form's row of the
opcode map (rule R56), whatever its operands are.
-/

namespace Sys2Proof.Laws

/-- The row of a form selects the request word of every request of the form. -/
def RowMatch.Statement (i : Instr) : Prop := i.row.selects (encode i) = true

/-- The bits of a format D word that its rows look at. -/
theorem encodeD_masked (act : Bool) (t : Telegram) (var : Variant) (ch : Channel) (last : BitVec 3) :
    encodeD act t var ch last &&& 0xFFFF1000#32 = placeFlag act 12 := by
  apply BitVec.eq_of_getLsbD_eq
  intro k hk
  unfold encodeD placeTelegram placeFlag
  simp only [BitVec.getLsbD_and, BitVec.getLsbD_or, getLsbD_place]
  interval_cases k <;> simp

/-- The bits of a format N word that its rows look at. -/
theorem encodeN_masked (mode : SwitchMode) (t : Telegram) (d1c d2c : RockerCode) (hsa ud csv csb : Bool) :
    encodeN mode t d1c d2c hsa ud csv csb &&& 0xFFF18000#32 = 0x40000000#32 ||| place mode.code 15 := by
  apply BitVec.eq_of_getLsbD_eq
  intro k hk
  unfold encodeN placeTelegram placeFlag
  simp only [BitVec.getLsbD_and, BitVec.getLsbD_or, getLsbD_place]
  interval_cases k <;> simp

/-- The bits of a format E word that its rows look at. -/
theorem encodeE_masked (cmd : Command) (var : Variant) (ch : Channel) :
    encodeE cmd var ch &&& 0xFFFFF3FF#32 = 0x80000000#32 ||| place cmd.code 12 := by
  cases cmd <;> cases var <;> cases ch <;> decide

/-- The bits of a format T word that its row looks at. -/
theorem encodeT_masked (t : Telegram) (var : Variant) : encodeT t var &&& 0xFFFFF800#32 = 0xC0000000#32 := by
  apply BitVec.eq_of_getLsbD_eq
  intro k hk
  unfold encodeT placeTelegram placeFlag
  simp only [BitVec.getLsbD_and, BitVec.getLsbD_or, getLsbD_place]
  interval_cases k <;> simp

theorem RowMatch.decevDir (t : Telegram) (var : Variant) (ch : Channel) (last : BitVec 3) : RowMatch.Statement (.decevDir t var ch last) := by
  simp only [RowMatch.Statement, OpcodeRow.selects, Instr.row, rowDecevDir, encode, encodeD_masked]
  decide

theorem RowMatch.decevAct (t : Telegram) (var : Variant) (ch : Channel) (last : BitVec 3) : RowMatch.Statement (.decevAct t var ch last) := by
  simp only [RowMatch.Statement, OpcodeRow.selects, Instr.row, rowDecevAct, encode, encodeD_masked]
  decide

theorem RowMatch.nxtstRocker (t : Telegram) (d1c d2c : RockerCode) (hsa ud csv csb : Bool) : RowMatch.Statement (.nxtstRocker t d1c d2c hsa ud csv csb) := by
  simp only [RowMatch.Statement, OpcodeRow.selects, Instr.row, rowNxtstRocker, encode, encodeN_masked]
  decide

theorem RowMatch.nxtstTgl1 (t : Telegram) (d1c d2c : RockerCode) (hsa ud csv csb : Bool) : RowMatch.Statement (.nxtstTgl1 t d1c d2c hsa ud csv csb) := by
  simp only [RowMatch.Statement, OpcodeRow.selects, Instr.row, rowNxtstTgl1, encode, encodeN_masked]
  decide

theorem RowMatch.nxtstTgl2 (t : Telegram) (d1c d2c : RockerCode) (hsa ud csv csb : Bool) : RowMatch.Statement (.nxtstTgl2 t d1c d2c hsa ud csv csb) := by
  simp only [RowMatch.Statement, OpcodeRow.selects, Instr.row, rowNxtstTgl2, encode, encodeN_masked]
  decide

theorem RowMatch.encmdD1P (var : Variant) (ch : Channel) : RowMatch.Statement (.encmdD1P var ch) := by
  simp only [RowMatch.Statement, OpcodeRow.selects, Instr.row, rowEncmdD1P, encode, encodeE_masked]
  decide

theorem RowMatch.encmdD1R (var : Variant) (ch : Channel) : RowMatch.Statement (.encmdD1R var ch) := by
  simp only [RowMatch.Statement, OpcodeRow.selects, Instr.row, rowEncmdD1R, encode, encodeE_masked]
  decide

theorem RowMatch.encmdD2P (var : Variant) (ch : Channel) : RowMatch.Statement (.encmdD2P var ch) := by
  simp only [RowMatch.Statement, OpcodeRow.selects, Instr.row, rowEncmdD2P, encode, encodeE_masked]
  decide

theorem RowMatch.encmdD2R (var : Variant) (ch : Channel) : RowMatch.Statement (.encmdD2R var ch) := by
  simp only [RowMatch.Statement, OpcodeRow.selects, Instr.row, rowEncmdD2R, encode, encodeE_masked]
  decide

theorem RowMatch.teach (t : Telegram) (var : Variant) : RowMatch.Statement (.teach t var) := by
  simp only [RowMatch.Statement, OpcodeRow.selects, Instr.row, rowTeach, encode, encodeT_masked]
  decide

end Sys2Proof.Laws
end

