-- ==== Sys2Proof/Laws/Run.lean ====
section
/-! SUPPORT. Runs of several steps: one step taken off a run. -/

namespace Sys2Proof.Machine

/-- A run of no step. -/
@[simp] theorem run_zero (s : State) : core.run 0 s = .next s := rfl

/-- A run whose first step answers a next state goes on from there. -/
theorem run_succ {s t : State} {n : Nat} (h : step s = .next t) : core.run (n + 1) s = core.run n t := by
  simp [Host.Core.run, core, h]

/-- A run of one step is that step. -/
theorem run_one {s t : State} (h : step s = .next t) : core.run 1 s = .next t := by
  rw [run_succ h, run_zero]

end Sys2Proof.Machine
end

