-- ==== Sys2Proof/Tests/Slice0.lean ====
section
/-!
SUPPORT. The model's own tests. Expected words come from spec/95_test_vectors.md (the vector is named beside each test)
or are written out bit by bit from the formats of rules R42 to R49; expected values of text come from rules R61 to R64.
The `witness_…` theorems show that the hypotheses of the obligations can be met.
-/

namespace Sys2Proof.Tests

open Sys2Proof.Machine

/-! ## Helpers -/

/-- The response port after a step that answers a next state. -/
def rspOf : Host.Outcome State Fault Refusal → Option Word
  | .next s => some s.rsp
  | .fault _ => none
  | .refused _ => none

/-- A channel's context after a step that answers a next state. -/
def contextOf (i : Nat) : Host.Outcome State Fault Refusal → Option Context
  | .next s => some (s.context i)
  | .fault _ => none
  | .refused _ => none

/-- What was passed on up to the end of a step that answers a next state. -/
def emittedOf : Host.Outcome State Fault Refusal → List Emission
  | .next s => s.emitted
  | .fault _ => []
  | .refused _ => []

/-- The response to a request word presented right after reset. -/
def answer (w : Word) : Option Word := rspOf (step (State.reset.withFetchWord 32 w.toNat))

/-- What the decoder makes of the four bytes of a word. -/
def readName (w : Word) : Option DecodeError :=
  match decodeBytes (bytesOfWord w) with
  | .ok _ => none
  | .error e => some e

/-- A press telegram. -/
def press (sb : Byte) : Telegram := ⟨sb, true, true⟩

/-- The release telegram. -/
def letGo : Telegram := ⟨0x00#8, true, false⟩

/-- `CFG[0]` of program 1: `CH=A VAR=STD MODE=TGL1 HSA=0 ACT=0 UD=0`. -/
def lightCfg : Cfg := ⟨.a, .standard, .toggleOnDir1, false, false, false⟩

/-- A caller with channel 0 configured as in program 1, its state and last event, and actions to handle. -/
def light (cs : Option Bool) (le : BitVec 3) (inbox : List CallerAction) : State :=
  { State.reset with store := [(0, ⟨true, lightCfg, cs, le⟩)], inbox := inbox }

/-! ## `WellFormed`: an ill-formed term for each check -/

theorem test_wf_refuses_last_7_directional : (Instr.decevDir (press 0x30#8) .standard .a 7#3).wf = false := by decide
theorem test_wf_refuses_last_7_action : (Instr.decevAct (press 0x30#8) .standard .a 7#3).wf = false := by decide
theorem test_wf_refuses_csb_without_csv_rocker :
    (Instr.nxtstRocker (press 0x30#8) .a0 .ai false false false true).wf = false := by decide
theorem test_wf_refuses_csb_without_csv_tgl1 :
    (Instr.nxtstTgl1 (press 0x30#8) .a0 .ai false false false true).wf = false := by decide
theorem test_wf_refuses_csb_without_csv_tgl2 :
    (Instr.nxtstTgl2 (press 0x30#8) .a0 .ai false false false true).wf = false := by decide

/-! ## Decoding: each form's word, bit by bit from its format -/

/-- Format D: OP=00, reserved 0, LAST=101, ACT=0, CH=1, VAR=1, NU=1, T21=0, SB=10110010. -/
theorem test_decode_decev_dir :
    decode (0b00_00000000000000_101_0_1_1_1_0_10110010#32) =
      .ok (.decevDir ⟨0xB2#8, false, true⟩ .inverted .b 5#3) := by rfl

/-- Format D: OP=00, reserved 0, LAST=110, ACT=1, CH=0, VAR=1, NU=0, T21=1, SB=00110111. -/
theorem test_decode_decev_act :
    decode (0b00_00000000000000_110_1_0_1_0_1_00110111#32) =
      .ok (.decevAct ⟨0x37#8, true, false⟩ .inverted .a 6#3) := by rfl

/-- Format N: OP=01, reserved 0, CSB=0, CSV=1, UD=1, MODE=00, HSA=0, D2C=10, D1C=11, NU=1, T21=1, SB=01110000. -/
theorem test_decode_nxtst_rocker :
    decode (0b01_0000000000_0_1_1_00_0_10_11_1_1_01110000#32) =
      .ok (.nxtstRocker (press 0x70#8) .b0 .bi false true true false) := by rfl

/-- Format N: OP=01, reserved 0, CSB=1, CSV=1, UD=0, MODE=01, HSA=1, D2C=00, D1C=01, NU=0, T21=1, SB=00110001. -/
theorem test_decode_nxtst_tgl1 :
    decode (0b01_0000000000_1_1_0_01_1_00_01_0_1_00110001#32) =
      .ok (.nxtstTgl1 ⟨0x31#8, true, false⟩ .a0 .ai true false true true) := by rfl

/-- Format N: OP=01, reserved 0, CSB=0, CSV=0, UD=1, MODE=10, HSA=0, D2C=01, D1C=00, NU=1, T21=0, SB=00010000. -/
theorem test_decode_nxtst_tgl2 :
    decode (0b01_0000000000_0_0_1_10_0_01_00_1_0_00010000#32) =
      .ok (.nxtstTgl2 ⟨0x10#8, false, true⟩ .ai .a0 false true false false) := by rfl

/-- Format E: OP=10, reserved 0, CMD=00, CH=1, VAR=0, reserved 0. -/
theorem test_decode_encmd_d1p :
    decode (0b10_0000000000000000_00_1_0_0000000000#32) = .ok (.encmdD1P .standard .b) := by rfl

/-- Format E: OP=10, reserved 0, CMD=01, CH=0, VAR=1, reserved 0. -/
theorem test_decode_encmd_d1r :
    decode (0b10_0000000000000000_01_0_1_0000000000#32) = .ok (.encmdD1R .inverted .a) := by rfl

/-- Format E: OP=10, reserved 0, CMD=10, CH=1, VAR=1, reserved 0. -/
theorem test_decode_encmd_d2p :
    decode (0b10_0000000000000000_10_1_1_0000000000#32) = .ok (.encmdD2P .inverted .b) := by rfl

/-- Format E: OP=10, reserved 0, CMD=11, CH=0, VAR=0, reserved 0. -/
theorem test_decode_encmd_d2r :
    decode (0b10_0000000000000000_11_0_0_0000000000#32) = .ok (.encmdD2R .standard .a) := by rfl

/-- Format T: OP=11, reserved 0, VAR=1, NU=0, T21=1, SB=01010000. -/
theorem test_decode_teach :
    decode (0b11_0000000000000000000_1_0_1_01010000#32) = .ok (.teach ⟨0x50#8, true, false⟩ .inverted) := by rfl

/-- The encoder writes the words of vectors DA22, NX41 and EN15. -/
theorem test_encode_words :
    encode (.decevAct letGo .inverted .b 3#3) = 0x00007D00#32 ∧
    encode (.nxtstTgl2 (press 0x30#8) .a0 .a0 false false false false) = 0x40011730#32 ∧
    encode (.encmdD2P .inverted .b) = 0x80002C00#32 := by decide

/-- The opcode table's numbering: the bits of row `TEACH`, and of `ENCMD.D2P` with all 32 bits given. -/
theorem test_decode_table_word :
    decodeTableWord 32 0xC0000130 = some (.teach ⟨0x30#8, true, false⟩ .standard) ∧
    decodeTableWord 32 0x80002C00 = some (.encmdD2P .inverted .b) ∧ decodeTableWord 32 0x40018730 = none := by decide

/-- The byte of bits 7..0 comes first, and the bytes after a word are left (rule R30). -/
theorem test_decode_bytes_little_endian :
    decodeBytes [0x30#8, 0x01#8, 0x00#8, 0xC0#8, 0xAA#8] =
      .ok (.teach ⟨0x30#8, true, false⟩ .standard, [0xAA#8]) := by rfl

theorem test_decode_bytes_truncated : decodeBytes [0x30#8, 0x01#8, 0x00#8] = .error .truncated := by rfl

/-- Vectors IV1 to IV11, each rejected by name. -/
theorem test_invalid_words_by_name :
    readName 0x00010330#32 = some .reservedBit ∧ readName 0x20000330#32 = some .reservedBit ∧
    readName 0x0000E100#32 = some .reservedLast ∧ readName 0x40018730#32 = some .reservedMode ∧
    readName 0x40080730#32 = some .stateValueWithoutValid ∧ readName 0x40100730#32 = some .reservedBit ∧
    readName 0x80000001#32 = some .reservedBit ∧ readName 0x80004000#32 = some .reservedBit ∧
    readName 0x80000200#32 = some .reservedBit ∧ readName 0xC0000B30#32 = some .reservedBit ∧
    readName 0xFFFFFFFF#32 = some .reservedBit := by decide

/-- Vectors IV1, IV3, IV4, IV5, IV7, IV10 answer `INV` (rule R57). -/
theorem test_invalid_words_answer_inv :
    answer 0x00010330#32 = some 0x80000000#32 ∧ answer 0x0000E100#32 = some 0x80000000#32 ∧
    answer 0x40018730#32 = some 0x80000000#32 ∧ answer 0x40080730#32 = some 0x80000000#32 ∧
    answer 0x80000001#32 = some 0x80000000#32 ∧ answer 0xC0000B30#32 = some 0x80000000#32 := by decide

/-! ## One step per operation, right after reset -/

/-- DD9 (Inverted A), DD6 (Standard B). -/
theorem test_decev_dir_press : answer 0x00000710#32 = some 1#32 ∧ answer 0x00000B50#32 = some 3#32 := by decide
/-- DD21, DD24 (`LAST` alone decides), DD12 (rule R96), DD30 (`T21` = 0). -/
theorem test_decev_dir_release :
    answer 0x00002100#32 = some 2#32 ∧ answer 0x00004100#32 = some 0#32 ∧ answer 0x00000300#32 = some 4#32 ∧
    answer 0x00000230#32 = some 0#32 := by decide

/-- DA7, DA13 (Dir1 wins), DA16 (`P2` = 0 is not counted). -/
theorem test_decev_act_press :
    answer 0x00001337#32 = some 0x2E#32 ∧ answer 0x00001375#32 = some 0x26#32 ∧
    answer 0x00001336#32 = some 0x0E#32 := by decide
/-- DA22 (release), DA25 (bit 7). -/
theorem test_decev_act_release : answer 0x00007D00#32 = some 5#32 ∧ answer 0x000013B7#32 = some 0#32 := by decide

/-- NX2, NX5 (Up), NX20 (a dual press is not suppressed). -/
theorem test_nxtst_rocker_primary :
    answer 0x40000710#32 = some 1#32 ∧ answer 0x40060730#32 = some 7#32 ∧ answer 0x40000737#32 = some 3#32 := by decide
/-- NX14 (secondary slot), NX11 (`T21` = 0). -/
theorem test_nxtst_rocker_secondary : answer 0x40006F17#32 = some 3#32 ∧ answer 0x40040630#32 = some 0#32 := by decide

/-- NX26 (None to On), NX29 (`hsa` = 0). -/
theorem test_nxtst_tgl1 : answer 0x40008730#32 = some 3#32 ∧ answer 0x400CAF17#32 = some 0#32 := by decide
/-- NX32: primary Dir2, secondary Dir1: one flip. -/
theorem test_nxtst_tgl1_secondary : answer 0x4004EF57#32 = some 3#32 := by decide

/-- NX35 (Down to Up), NX41 (degenerate operands). -/
theorem test_nxtst_tgl2 : answer 0x40070710#32 = some 7#32 ∧ answer 0x40011730#32 = some 3#32 := by decide

/-- EN9. -/
theorem test_encmd_d1p : answer 0x80000400#32 = some 0x310#32 := by decide
/-- EN6. -/
theorem test_encmd_d1r : answer 0x80001800#32 = some 0x100#32 := by decide
/-- EN3, EN15. -/
theorem test_encmd_d2p : answer 0x80002000#32 = some 0x310#32 ∧ answer 0x80002C00#32 = some 0x370#32 := by decide
/-- EN12. -/
theorem test_encmd_d2r : answer 0x80003400#32 = some 0x100#32 := by decide

/-- TE5 (`NU` is not read), TE14 (bit 7), TE17 (Inverted). -/
theorem test_teach :
    answer 0xC0000130#32 = some 1#32 ∧ answer 0xC00003FF#32 = some 0#32 ∧ answer 0xC0000570#32 = some 0#32 := by decide

/-- The word right after reset is run as the instruction it decodes to. -/
theorem test_step_runs_fetched_word :
    step (State.reset.withFetchWord 32 0xC0000130) =
      exec (.teach ⟨0x30#8, true, false⟩ .standard) (State.reset.withFetchWord 32 0xC0000130) := by rfl

/-! ## The direction table -/

/-- T1 and T4: `DIRS STD A` and `DIRS INV B`. -/
theorem test_dirs :
    emittedOf (step { State.reset with inbox := [.dirs .standard .a] }) = [.codes .a0 .ai] ∧
    emittedOf (step { State.reset with inbox := [.dirs .inverted .b] }) = [.codes .bi .b0] := by decide

/-! ## The caller's steps: programs 1 and 6, one step each -/

/-- Writing `CFG[0]` creates a fresh context (rule R187). -/
theorem test_configure :
    contextOf 0 (step (light (some true) 1#3 [.configure 0 { lightCfg with act := true }])) =
      some ⟨true, { lightCfg with act := true }, none, 0#3⟩ := by decide

/-- Program 1, step 1: event Dir1Pressed, state On. -/
theorem test_recv_press :
    contextOf 0 (step (light none 0#3 [.recv 0 (press 0x30#8)])) = some ⟨true, lightCfg, some true, 1#3⟩ ∧
    emittedOf (step (light none 0#3 [.recv 0 (press 0x30#8)])) =
      [.event 0 .dir1Pressed, .newState 0 false true] := by decide

/-- Program 1, steps 6 and 7: the release, and a stray second release that gives nothing. -/
theorem test_recv_release :
    contextOf 0 (step (light (some false) 3#3 [.recv 0 letGo])) = some ⟨true, lightCfg, some false, 4#3⟩ ∧
    emittedOf (step (light (some false) 3#3 [.recv 0 letGo])) = [.event 0 .dir2Released] ∧
    contextOf 0 (step (light (some false) 4#3 [.recv 0 letGo])) = some ⟨true, lightCfg, some false, 4#3⟩ ∧
    emittedOf (step (light (some false) 4#3 [.recv 0 letGo])) = [] := by decide

/-- Program 6: two presses whose handlings overlap leave On where two in order leave Off. -/
theorem test_recv_overlap :
    contextOf 0 (step (light (some false) 0#3 [.recvOverlap 0 (press 0x30#8) (press 0x30#8)])) =
      some ⟨true, lightCfg, some true, 1#3⟩ := by decide

/-- A `SEND` passes on the press of A0 and leaves the context (rule R155). -/
theorem test_send :
    emittedOf (step (light none 0#3 [.send 0 .dir1Pressed])) = [.telegram 0 (press 0x30#8)] ∧
    contextOf 0 (step (light none 0#3 [.send 0 .dir1Pressed])) = some ⟨true, lightCfg, none, 0#3⟩ := by decide

/-- A channel never configured is refused by name (U12). -/
theorem test_unconfigured_refused :
    step { State.reset with inbox := [.recv 0 letGo] } = .refused (.channelNotConfigured 0) := by rfl

/-- An identifier outside `0 .. NCH-1` faults (rule R28). -/
theorem test_no_such_channel :
    step { State.reset with inbox := [.send Config.nch .dir1Pressed] } = .fault (.noSuchChannel Config.nch) := by
  simp [step, handle, send, State.onConfigured, State.onChannel]

/-! ## Text -/

/-- A line of rule R61, read and written. -/
theorem test_text_request :
    readRequest "NXTST  sb=0x30 t21=1 nu=1 d1=A0 d2=AI hsa=0 mode=TGL1 ud=0 cs=NONE" =
      some (.nxtstTgl1 (press 0x30#8) .a0 .ai false false false false) ∧
    requestText (.encmdD2P .inverted .b) = some "ENCMD var=INV ch=B cmd=Dir2Pressed" := by decide

/-- The response texts of rule R61's examples. -/
theorem test_text_responses :
    eventText (.action .none .dir1) = "ev=Action da=- db=Dir1" ∧ telegramText (press 0x70#8) = "sb=0x70 t21=1 nu=1" ∧
    newStateText false (some true) = "ns=On" ∧ teachText true = "ok=1" := by decide

/-! ## Witnesses: the hypotheses of the obligations can be met -/

/-- `DecodeReadsBackEveryValidRequest`, at the largest `LAST`. -/
theorem witness_valid_request :
    (Instr.decevDir (press 0xFF#8) .inverted .b 6#3).wf = true ∧
    (Instr.nxtstRocker (press 0xFF#8) .b0 .b0 true true true true).wf = true := by decide

/-- `EncodeWritesBackEveryDecodedWord` and `ValidWordMatchesExactlyOneRow`: the last vector word DA22. -/
theorem witness_decoded_word : decode 0x00007D00#32 = .ok (.decevAct letGo .inverted .b 3#3) := by rfl

/-- `InvalidWordsAnswerInv`, first case of rule R57: reserved bits at each end of each format's reserved fields. -/
theorem witness_reserved_bits :
    reservedBitSet 0x00010330#32 ∧ reservedBitSet 0x20000330#32 ∧ reservedBitSet 0x40100730#32 ∧
    reservedBitSet 0x80004000#32 ∧ reservedBitSet 0x80000200#32 ∧ reservedBitSet 0xC0000B30#32 := by
  refine ⟨?_, ?_, ?_, ?_, ?_, ?_⟩ <;> unfold reservedBitSet <;> decide

/-- `InvalidWordsAnswerInv`, the other three cases, and a word in none of the four. -/
theorem witness_invalid_fields :
    invalidWord 0x40018730#32 ∧ invalidWord 0x40080730#32 ∧ invalidWord 0x0000E100#32 ∧
    ¬ invalidWord 0x00007D00#32 := by
  refine ⟨?_, ?_, ?_, ?_⟩ <;> unfold invalidWord reservedBitSet <;> decide

/-- `InvalidWordsAnswerInv`: such a word at the input port of a state at rest. -/
theorem witness_word_at_port :
    (State.reset.present 0x00010330#32).inbox = [] ∧ (State.reset.present 0x00010330#32).req = 0x00010330#32 :=
  ⟨rfl, rfl⟩

/-- `IllFormedRequestsAnswerInv`: an ill-formed term of each format that has one. -/
theorem witness_ill_formed :
    (Instr.decevDir letGo .standard .a 7#3).wf = false ∧
    (Instr.nxtstTgl2 letGo .a0 .ai false false false true).wf = false := by decide

/-- `StepRunsTheDecodedRequest`: a request at the port, and one presented. -/
theorem witness_step_decodes :
    (State.reset.present 0x00007D00#32).inbox = [] ∧
    decode (State.reset.present 0x00007D00#32).req = .ok (.decevAct letGo .inverted .b 3#3) ∧
    ({ State.reset with inbox := [.request 0x00007D00#32, .dirs .standard .a] } : State).inbox =
      .request 0x00007D00#32 :: [.dirs .standard .a] := ⟨rfl, rfl, rfl⟩

/-- `RequestListAnswersEachWordAlone`: an invalid word before the last. -/
theorem witness_request_list :
    ({ State.reset with inbox := [.request 0xFFFFFFFF#32, .request 0xC0000130#32] } : State).inbox =
      [0xFFFFFFFF#32].map CallerAction.request ++ [.request 0xC0000130#32] := rfl

/-- `StepKeepsTheInvariant`: a caller with a channel configured, whose next step handles a telegram. -/
theorem witness_invariant :
    (light none 0#3 [.recv 0 (press 0x30#8)]).inv ∧
    ∃ t, step (light none 0#3 [.recv 0 (press 0x30#8)]) = .next t := ⟨by decide, _, rfl⟩

/-- The `LAST` of every `DECEV` statement, at its largest value and 0. -/
theorem witness_last : (6#3 : BitVec 3) ≠ 7#3 ∧ (0#3 : BitVec 3) ≠ 7#3 := by decide

/-- `RejectedTelegramsGiveNoEvent`: each of the two reasons alone. -/
theorem witness_rejected :
    (press 0x80#8).sb.getLsbD 7 = true ∧ (⟨0x30#8, false, true⟩ : Telegram).t21 = false ∧ (4#3 : BitVec 3) ≠ 7#3 := by
  decide

/-- `DecevDirReadsOnlyItsFields`: different bytes that agree on the fields read. -/
theorem witness_fields_read :
    (0x30#8 : Byte) &&& 0xF1#8 = 0x3E#8 &&& 0xF1#8 ∧ (0x00#8 : Byte).getLsbD 7 = (0x7F#8 : Byte).getLsbD 7 := by decide

/-- `ActionDirectionsByNibble`, third clause: a byte that reports both channels. -/
theorem witness_both_channels : dirA 0x37#8 ≠ .none ∧ dirB 0x37#8 ≠ .none := by decide

/-- `ShutGateChangesNothing`: each of the three reasons alone, with a valid state operand. -/
theorem witness_gate :
    (press 0xB0#8).sb.getLsbD 7 = true ∧ (⟨0x30#8, false, true⟩ : Telegram).t21 = false ∧ letGo.nu = false ∧
    (true = true ∨ true = false) := by decide

/-- The state operand of every `NXTST` statement: None, Off and On. -/
theorem witness_state_operand :
    (false = true ∨ false = false) ∧ (true = true ∨ false = false) ∧ (true = true ∨ true = false) := by decide

/-- `UdSelectsTheNameOnly`: the three forms. -/
theorem witness_forms :
    ∃ form : Bool → Instr, form = fun ud => .nxtstTgl2 (press 0x30#8) .a0 .ai true ud true false := ⟨_, rfl⟩

/-- `TeachReadsTwoBitsOfTheByte`: different bytes that agree on bits 7 and 4. -/
theorem witness_teach_bits : (0x10#8 : Byte) &&& 0x90#8 = 0x7F#8 &&& 0x90#8 := by decide

/-- `RecvHandlesOneTelegram`, `SendWritesNoContext`, `StateNeverReturnsToNone`, `OtherChannelsAreUntouched`: channel 0,
the only identifier every `NCH` has, configured and On. -/
theorem witness_channel :
    Store.wf (light (some true) 1#3 [.recv 0 letGo]).store ∧ 0 < Config.nch ∧
    ((light (some true) 1#3 [.recv 0 letGo]).context 0).configured = true ∧
    ((light (some true) 1#3 [.recv 0 letGo]).context 0).cs.isSome = true ∧
    (light (some true) 1#3 [.recv 0 letGo]).inbox = .recv 0 letGo :: [] ∧
    (light (some true) 1#3 [.send 0 .dir2Released]).inbox = .send 0 .dir2Released :: [] ∧
    CallerAction.writes (.recv 0 letGo) ≠ some 1 ∧ CallerAction.writes (.send 0 .dir1Pressed) ≠ some 0 ∧
    ∃ t, step (light (some true) 1#3 [.recv 0 letGo]) = .next t :=
  ⟨by decide, by decide, by decide, by decide, rfl, rfl, by decide, by decide, _, rfl⟩

/-- `StateNeverReturnsToNone` and the first clause of `ConfigurationIsConstantPerChannel`: the next action is no
configuration of the channel. -/
theorem witness_not_configuring :
    ∀ cfg rest, (light (some true) 1#3 [.recv 0 letGo]).inbox ≠ .configure 0 cfg :: rest := by
  intro cfg rest h
  cases h

/-- `StateNeverReturnsToNone`, second clause: a telegram that changes no state. -/
theorem witness_no_change : contextState ((light (some true) 1#3 [.recv 0 letGo]).context 0) letGo = none := by decide

/-- `ConfigurationIsConstantPerChannel`, second clause: a channel configured again. -/
theorem witness_reconfigure :
    Store.wf (light (some true) 1#3 [.configure 0 lightCfg]).store ∧ 0 < Config.nch ∧
    (light (some true) 1#3 [.configure 0 lightCfg]).inbox = .configure 0 lightCfg :: [] :=
  ⟨by decide, by decide, rfl⟩

/-- `RecvAndSendAreCoreRequests`: a context with the largest `LE` a `RECV` writes. -/
theorem witness_last_event : (Context.mk true lightCfg none 4#3).le ≠ 7#3 := by decide

/-- `DirsPassesOnTheTableRow`. -/
theorem witness_dirs :
    ({ State.reset with inbox := [.dirs .inverted .b] } : State).inbox = .dirs .inverted .b :: [] := rfl

/-- `UnpreparedActionsStopByName`: an existing channel not configured, and the first identifier that does not exist. -/
theorem witness_unprepared :
    0 < Config.nch ∧ (State.reset.context 0).configured = false ∧ Config.nch ≤ Config.nch :=
  ⟨by decide, by decide, Nat.le_refl _⟩

/-- `StepStopsOnlyUnprepared`: an action the caller is prepared for, and one it is not. -/
theorem witness_allows :
    (light none 0#3 []).allows (.recv 0 letGo) ∧ ¬ State.reset.allows (.recv 0 letGo) := by
  constructor
  · exact ⟨by decide, by decide⟩
  · rintro ⟨_, h⟩
    exact absurd h (by decide)

/-- `PreparedRunsAreNeverStopped`: a list of every action, the channel configured first. -/
theorem witness_prepared :
    Store.wf State.reset.store ∧
    prepared [] [.request 0xFFFFFFFF#32, .configure 0 lightCfg, .dirs .standard .a, .recv 0 letGo,
      .recvOverlap 0 letGo letGo, .send 0 .dir1Pressed] := by
  have h : 0 < Config.nch := by decide
  exact ⟨by decide, by simp [prepared, h]⟩

/-- `ActionsOfDifferentChannelsCommute`: a telegram for channel 0 and a request to the core, whatever `NCH` is. -/
theorem witness_commute :
    Store.wf (light none 0#3 []).store ∧ (light none 0#3 []).allows (.recv 0 (press 0x30#8)) ∧
    (light none 0#3 []).allows (.request 0xC0000130#32) ∧
    (∀ i, CallerAction.channel (.recv 0 (press 0x30#8)) = some i →
      CallerAction.channel (.request 0xC0000130#32) ≠ some i) ∧
    (∀ w, CallerAction.word (.recv 0 (press 0x30#8)) = some w →
      CallerAction.word (.request 0xC0000130#32) = none) := by
  refine ⟨by decide, ⟨by decide, by decide⟩, trivial, ?_, ?_⟩
  · intro i _ h
    cases h
  · intro w h
    cases h

/-- `ActionsOfDifferentChannelsCommute` for two channels, where the caller holds a second one. -/
theorem witness_commute_two_channels (h : 1 < Config.nch) :
    let s := { State.reset with store := [(0, ⟨true, lightCfg, none, 0#3⟩), (1, ⟨true, lightCfg, none, 0#3⟩)] }
    Store.wf s.store ∧ s.allows (.recv 0 (press 0x30#8)) ∧ s.allows (.recv 1 (press 0x30#8)) := by
  have h0 : 0 < Config.nch := by decide
  refine ⟨⟨by decide, ?_⟩, ⟨h0, by decide⟩, ⟨h, by decide⟩⟩
  intro x hx
  rcases List.mem_cons.1 hx with rfl | hx
  · exact ⟨h0, by decide⟩
  · rcases List.mem_cons.1 hx with rfl | hx
    · exact ⟨h, by decide⟩
    · cases hx

/-- `OverlapLosesAToggle` in mode ToggleOnDir1: a press of its direction. -/
theorem witness_toggle_dir1 :
    Store.wf (light none 0#3 []).store ∧ 0 < Config.nch ∧ ((light none 0#3 []).context 0).configured = true ∧
    (press 0x30#8).t21 = true ∧ (press 0x30#8).nu = true ∧ (press 0x30#8).sb.getLsbD 7 = false ∧
    (press 0x30#8).sb.getLsbD 4 = true ∧ ((light none 0#3 []).context 0).cfg.mode = .toggleOnDir1 ∧
    (press 0x30#8).sb >>> 5 = (dir1Code .standard .a).code.setWidth 8 := by decide

/-- `OverlapLosesAToggle` in mode ToggleOnDir2: a press of its direction, on a channel that is On. -/
theorem witness_toggle_dir2 :
    let s : State := { State.reset with store := [(0, ⟨true, { lightCfg with mode := .toggleOnDir2 }, some true, 0#3⟩)] }
    Store.wf s.store ∧ 0 < Config.nch ∧ (s.context 0).configured = true ∧ (press 0x10#8).sb.getLsbD 7 = false ∧
    (press 0x10#8).sb.getLsbD 4 = true ∧ (s.context 0).cfg.mode = .toggleOnDir2 ∧
    (press 0x10#8).sb >>> 5 = (dir2Code (s.context 0).cfg.var (s.context 0).cfg.ch).code.setWidth 8 := by decide

/-- `OnePressYieldsAtMostOneRelease`: the bound is reached by a press and two releases, with 1 on each side, and from a
press not yet released with 1 on the left. -/
theorem witness_one_release :
    (Context.mk true lightCfg none 0#3).cfg.act = false ∧
    releasedCount ⟨true, lightCfg, none, 0#3⟩ [press 0x30#8, letGo, letGo] = 1 ∧
    pressedCount ⟨true, lightCfg, none, 0#3⟩ [press 0x30#8, letGo, letGo] = 1 ∧
    releasedCount ⟨true, lightCfg, none, 3#3⟩ [letGo, letGo] = 1 := by decide

/-- `ForeignTelegramsKeepTheLastPress`: presses of the other rocker and a byte with bit 7 set, after a press of each
direction. -/
theorem witness_foreign :
    (∀ x ∈ [press 0x70#8, press 0xB0#8], contextEvent ⟨true, lightCfg, none, 1#3⟩ x = .noEvent) ∧
    (∀ x ∈ [press 0x70#8, press 0xB0#8], contextEvent ⟨true, lightCfg, none, 3#3⟩ x = .noEvent) ∧
    lightCfg.act = false ∧ letGo.t21 = true ∧ letGo.nu = false ∧ letGo.sb.getLsbD 7 = false := by decide

/-- `SentCommandsArriveAsTheirEvents`: a channel that hears what it sends. -/
theorem witness_sent :
    Store.wf (light none 0#3 []).store ∧ 0 < Config.nch ∧ ((light none 0#3 []).context 0).configured = true ∧
    ((light none 0#3 []).context 0).cfg.act = false := by decide

/-- `CommandTagsAreOneToOne`: a tag that names a command. -/
theorem witness_tag : commandOfTag "Dir2Released" = some .dir2Released := by decide

end Sys2Proof.Tests
end

/-!
PROOFS. The statements of 10_state.md: what a step does to the ports on a request, what it does to the contexts of the
channels, and the contexts after reset.
-/

namespace Sys2Proof.Machine

/-! ## A step on a request -/

/-- A step with no action waiting runs the core on its input port. -/
theorem step_nil {s : State} (h : s.inbox = []) : step s = runRequest s := by
  unfold step
  rw [h]

/-- The core runs the request the word at its input port decodes to. -/
theorem runRequest_of_decode {s : State} {i : Instr} (h : decode s.req = .ok i) : runRequest s = exec i s := by
  unfold runRequest State.fetch
  rw [h]

/-- The whole next state of a presented request, valid or not: the two ports and the list of actions (rule R10). -/
theorem step_request {s : State} {w : Word} {rest : List CallerAction} (h : s.inbox = .request w :: rest) :
    step s = .next { s with req := w, rsp := blockResponse w, inbox := rest } :=
  (step_cons h).trans (runRequest_eq_respond _)

/-- Settles O8, by the two branches of a step. -/
theorem stepRunsTheDecodedRequest : Obligations.StepRunsTheDecodedRequest := by
  unfold Obligations.StepRunsTheDecodedRequest
  constructor
  · intro s i hidle hdec
    rw [step_nil hidle, runRequest_of_decode hdec]
  · intro s w rest i hreq hdec
    rw [step_cons hreq]
    exact runRequest_of_decode hdec

/-- Settles O9, by induction on the words requested before: a step overwrites both ports, so that nothing of the first
word is left for the rest of the list. -/
theorem requestListAnswersEachWordAlone : Obligations.RequestListAnswersEachWordAlone := by
  unfold Obligations.RequestListAnswersEachWordAlone
  intro ws w
  induction ws with
  | nil => exact fun s h => run_one (step_request h)
  | cons v vs ih =>
    intro s h
    calc core.run ((v :: vs).length + 1) s
        = core.run (vs.length + 1)
            { s with
              req := v
              rsp := blockResponse v
              inbox := vs.map CallerAction.request ++ [.request w] } := run_succ (step_request h)
      _ = .next { s with req := w, rsp := blockResponse w, inbox := [] } := ih _ rfl

/-! ## The contexts after reset -/

/-- Every channel has the reset context after reset: the store lists none (rules R20, R186). -/
@[simp] theorem State.reset_context (i : Nat) : State.reset.context i = Context.reset := rfl

/-- Settles O10: every context after reset is `Context.reset`. -/
theorem resetContextsAreUndefined : Obligations.ResetContextsAreUndefined := by
  unfold Obligations.ResetContextsAreUndefined
  intro i
  rw [State.reset_context]
  exact ⟨rfl, rfl⟩

/-! ## What a step does to the contexts -/

/-- An action writes no context but that of the channel it names (rule R18). -/
theorem handle_context_other {s t : State} {a : CallerAction} {i : Nat} (h : handle a s = .next t)
    (ha : CallerAction.writes a ≠ some i) : t.context i = s.context i := by
  have ne_of_writes {j : Nat} (hj : some j ≠ some i) : i ≠ j := fun e => hj (congrArg some e.symm)
  rcases handle_next h with ⟨w, rfl, rfl⟩ | ⟨var, ch, rfl, rfl⟩ | ⟨j, cmd, rfl, -, -, rfl⟩ | ⟨j, cfg, rfl, -, rfl⟩ |
    ⟨j, tg, rfl, -, -, rfl⟩ | ⟨j, t1, t2, rfl, -, -, rfl⟩
  case inl | inr.inl | inr.inr.inl => rfl
  all_goals exact State.context_setContext_other s _ (ne_of_writes ha)

/-- All that an action can do to the context of channel `i`: nothing, or, where it names the channel, what a
configuration, one handling or two overlapping ones leave. -/
theorem handle_context {s t : State} {a : CallerAction} (hwf : Store.wf s.store) (h : handle a s = .next t) (i : Nat) :
    t.context i = s.context i ∨
    (∃ cfg, a = .configure i cfg ∧ t.context i = { Context.reset with configured := true, cfg := cfg }) ∨
    (∃ tg, a = .recv i tg ∧ t.context i = contextAfter (s.context i) tg) ∨
    (∃ t1 t2, a = .recvOverlap i t1 t2 ∧ t.context i = contextAfterOverlap (s.context i) t1 t2) := by
  by_cases ha : CallerAction.writes a = some i
  · cases a with
    | request w => cases ha
    | dirs var ch => cases ha
    | send j cmd => cases ha
    | configure j cfg =>
      cases ha
      obtain ⟨-, rfl⟩ := configure_next h
      exact .inr (.inl ⟨cfg, rfl, State.context_setContext_same _ hwf⟩)
    | recv j tg =>
      cases ha
      obtain ⟨-, -, rfl⟩ := recv_next h
      exact .inr (.inr (.inl ⟨tg, rfl, State.context_setContext_same _ hwf⟩))
    | recvOverlap j t1 t2 =>
      cases ha
      obtain ⟨-, -, rfl⟩ := recvOverlap_next h
      exact .inr (.inr (.inr ⟨t1, t2, rfl, State.context_setContext_same _ hwf⟩))
  · exact .inl (handle_context_other h ha)

/-- All that a step can do to the context of channel `i`: the same as the action it handles. -/
theorem step_context {s t : State} (hwf : Store.wf s.store) (h : step s = .next t) (i : Nat) :
    t.context i = s.context i ∨
    (∃ cfg rest, s.inbox = .configure i cfg :: rest ∧
      t.context i = { Context.reset with configured := true, cfg := cfg }) ∨
    (∃ tg rest, s.inbox = .recv i tg :: rest ∧ t.context i = contextAfter (s.context i) tg) ∨
    (∃ t1 t2 rest, s.inbox = .recvOverlap i t1 t2 :: rest ∧
      t.context i = contextAfterOverlap (s.context i) t1 t2) := by
  rcases step_next h with ⟨-, rfl⟩ | ⟨a, rest, hin, hact⟩
  · exact .inl rfl
  · rcases handle_context (s := { s with inbox := rest }) hwf hact i with
      hsame | ⟨cfg, rfl, hc⟩ | ⟨tg, rfl, hc⟩ | ⟨t1, t2, rfl, hc⟩
    · exact .inl hsame
    · exact .inr (.inl ⟨cfg, rest, hin, hc⟩)
    · exact .inr (.inr (.inl ⟨tg, rest, hin, hc⟩))
    · exact .inr (.inr (.inr ⟨t1, t2, rest, hin, hc⟩))

/-- Settles O43: with an action waiting the step is its handling, which writes no other context. -/
theorem otherChannelsAreUntouched : Obligations.OtherChannelsAreUntouched := by
  unfold Obligations.OtherChannelsAreUntouched
  intro s t a rest i hin ha h
  rw [step_cons hin] at h
  exact handle_context_other (s := { s with inbox := rest }) h ha

/-! ## `CS` along a handling -/

/-- A result None of `NXTST` leaves `CS` as it was (rule R153). -/
@[simp] theorem stateAfter_none (cs : Option Bool) : stateAfter cs none = cs := rfl

/-- Neither result of `NXTST` takes `CS` from `Some` to None (rules R19, R153). -/
theorem stateAfter_isSome {cs : Option Bool} (ns : Option Bool) (h : cs.isSome = true) :
    (stateAfter cs ns).isSome = true := by
  cases ns with
  | none => exact h
  | some v => rfl

/-- `CS` after one handling. -/
@[simp] theorem contextAfter_cs (c : Context) (t : Telegram) :
    (contextAfter c t).cs = stateAfter c.cs (contextState c t) := rfl

/-- `CS` after two overlapping handlings: the two results of `NXTST` are written one after the other (rule R189). -/
@[simp] theorem contextAfterOverlap_cs (c : Context) (t1 t2 : Telegram) :
    (contextAfterOverlap c t1 t2).cs = stateAfter (stateAfter c.cs (contextState c t1)) (contextState c t2) := rfl

/-- No step but a configuration of the channel takes its `CS` from `Some` to None (rule R19). -/
theorem step_keeps_cs_isSome {s t : State} {i : Nat} (hwf : Store.wf s.store) (h : step s = .next t)
    (hin : ∀ cfg rest, s.inbox ≠ .configure i cfg :: rest) (hcs : (s.context i).cs.isSome = true) :
    (t.context i).cs.isSome = true := by
  rcases step_context hwf h i with hc | ⟨cfg, rest, hconf, -⟩ | ⟨tg, -, -, hc⟩ | ⟨t1, t2, -, -, hc⟩
  · rw [hc]
    exact hcs
  · exact absurd hconf (hin cfg rest)
  · rw [hc, contextAfter_cs]
    exact stateAfter_isSome _ hcs
  · rw [hc, contextAfterOverlap_cs]
    exact stateAfter_isSome _ (stateAfter_isSome _ hcs)

/-- The context of the channel after a step that handles a `RECV` (rules R150 to R153). -/
theorem step_recv_context {s t : State} {i : Nat} {tg : Telegram} {rest : List CallerAction}
    (hwf : Store.wf s.store) (hin : s.inbox = .recv i tg :: rest) (h : step s = .next t) :
    t.context i = contextAfter (s.context i) tg := by
  rw [step_cons hin] at h
  obtain ⟨-, -, rfl⟩ := recv_next h
  exact State.context_setContext_same _ hwf

/-- Settles O41, from what a step can do to a context and what a handling does to `CS`. -/
theorem stateNeverReturnsToNone : Obligations.StateNeverReturnsToNone := by
  unfold Obligations.StateNeverReturnsToNone
  intro s t i hwf h
  constructor
  · exact step_keeps_cs_isSome hwf h
  · intro tg rest hin hnone
    rw [step_recv_context hwf hin h, contextAfter_cs, hnone, stateAfter_none]

end Sys2Proof.Machine

/-!
PROOFS. The statements of 20_memory.md: a request word on a byte-wide path, the order of the caller's actions on the
context store, the direction ROM, and where the caller's actions stop.
-/

namespace Sys2Proof

/-! ## The bytes of a request word -/

/-- The four bytes of a word make up the word again (rule R30). -/
theorem wordOfBytes_bits (w : Word) : wordOfBytes (bits w 0 8) (bits w 8 8) (bits w 16 8) (bits w 24 8) = w := by
  have upper : bits w 24 8 ++ bits w 16 8 = bits w 16 16 := BitVec.extractLsb'_append_extractLsb'_eq_extractLsb' rfl
  have above_low : bits w 16 16 ++ bits w 8 8 = bits w 8 24 := BitVec.extractLsb'_append_extractLsb'_eq_extractLsb' rfl
  have all : bits w 8 24 ++ bits w 0 8 = w := BitVec.extractLsb'_append_extractLsb'
  rw [wordOfBytes, upper, above_low, all]

/-- The decoder on the bytes of a word, whatever follows them, is the decoder on the word (rule R59). -/
theorem decodeBytes_bytesOfWord_append (w : Word) (rest : List Byte) :
    decodeBytes (bytesOfWord w ++ rest) = (decode w).map fun i => (i, rest) := by
  simp only [bytesOfWord, List.cons_append, List.nil_append, decodeBytes, wordOfBytes_bits]
  cases decode w <;> rfl

/-- Settles O3, from the decoder on the bytes of a word. -/
theorem bytePathCarriesLowByteFirst : Obligations.BytePathCarriesLowByteFirst := by
  unfold Obligations.BytePathCarriesLowByteFirst
  intro w rest
  refine (decodeBytes_bytesOfWord_append w rest).trans ?_
  cases decode w <;> rfl

end Sys2Proof

namespace Sys2Proof.Machine

/-! ## The next state of an action, as one function -/

/-- The context an action leaves of the channel it names, from the context it finds there. -/
def CallerAction.written : CallerAction → Context → Context
  | .configure _ cfg, _ => { configured := true, cfg := cfg, cs := Context.reset.cs, le := Context.reset.le }
  | .recv _ t, c => contextAfter c t
  | .recvOverlap _ t1 t2, c => contextAfterOverlap c t1 t2
  | .send _ _, c => c
  | .request _, c => c
  | .dirs _ _, c => c

/-- What an action passes on, from the context of the channel it names. -/
def CallerAction.emissions : CallerAction → Context → List Emission
  | .recv i t, c => handlingEmissions i c t
  | .recvOverlap i t1 t2, c => handlingEmissions i c t1 ++ handlingEmissions i c t2
  | .send i cmd, c => [.telegram i (encodeCommand cmd c.cfg.var c.cfg.ch)]
  | .dirs var ch, _ => [.codes (dir1Code var ch) (dir2Code var ch)]
  | .configure _ _, _ => []
  | .request _, _ => []

/-- The context an action finds: that of the channel it is for. An action for no channel looks at none. -/
def State.contextFor (s : State) (a : CallerAction) : Context := a.channel.elim Context.reset s.context

/-- The state an action that the caller is prepared for leaves (`handle_of_allows`). -/
def State.after (s : State) (a : CallerAction) : State :=
  { req := a.word.getD s.req
    rsp := a.word.elim s.rsp blockResponse
    store := a.writes.elim s.store fun i => Store.write s.store i (a.written (s.context i))
    inbox := s.inbox
    emitted := s.emitted ++ a.emissions (s.contextFor a) }

@[simp] theorem State.after_req (s : State) (a : CallerAction) : (s.after a).req = a.word.getD s.req := rfl
@[simp] theorem State.after_rsp (s : State) (a : CallerAction) :
    (s.after a).rsp = a.word.elim s.rsp blockResponse := rfl
@[simp] theorem State.after_store (s : State) (a : CallerAction) :
    (s.after a).store = a.writes.elim s.store fun i => Store.write s.store i (a.written (s.context i)) := rfl
@[simp] theorem State.after_emitted (s : State) (a : CallerAction) :
    (s.after a).emitted = s.emitted ++ a.emissions (s.contextFor a) := rfl

/-- An action the caller is prepared for completes, and `State.after` is its next state. -/
theorem handle_of_allows {s : State} {a : CallerAction} (h : s.allows a) : handle a s = .next (s.after a) := by
  cases a with
  | request w =>
    calc handle (.request w) s
        = .next ((s.drive w).respond (blockResponse w)) := runRequest_eq_respond _
      _ = .next (s.after (.request w)) := by
          simp [State.after, State.drive, State.respond, CallerAction.word, CallerAction.writes, CallerAction.emissions]
  | dirs var ch => rfl
  | configure i cfg =>
    calc handle (.configure i cfg) s
        = .next (s.setContext i _) := configure_of_lt h cfg
      _ = .next (s.after (.configure i cfg)) := by
          simp [State.after, State.setContext, CallerAction.word, CallerAction.writes, CallerAction.emissions,
            CallerAction.written]
  | recv i t =>
    obtain ⟨hi, hc⟩ := h
    exact recv_of_configured hi hc t
  | recvOverlap i t1 t2 =>
    obtain ⟨hi, hc⟩ := h
    exact recvOverlap_of_configured hi hc t1 t2
  | send i cmd =>
    obtain ⟨hi, hc⟩ := h
    exact send_of_configured hi hc cmd

/-- A step with an action waiting that the caller is prepared for. -/
theorem step_of_allows {s : State} {a : CallerAction} (rest : List CallerAction) (h : s.allows a) :
    step { s with inbox := a :: rest } = .next { s.after a with inbox := rest } :=
  (step_cons rfl).trans (handle_of_allows (s := { s with inbox := rest }) h)

/-- Two steps with two actions waiting, the caller prepared for each when its turn comes. -/
theorem run_two_of_allows {s : State} {a b : CallerAction} (ha : s.allows a) (hb : (s.after a).allows b) :
    core.run 2 { s with inbox := [a, b] } = .next { (s.after a).after b with inbox := [] } :=
  (run_succ (step_of_allows [b] ha)).trans (run_one (step_of_allows (s := s.after a) [] hb))

/-! ## What an action leaves to the actions for other channels -/

/-- An action writes at most the context of the channel it is for. -/
theorem CallerAction.channel_of_writes {a : CallerAction} {i : Nat} (h : a.writes = some i) : a.channel = some i := by
  cases a with
  | request | dirs | send => cases h
  | configure | recv | recvOverlap => exact h

/-- An action leaves every context but that of the channel it is for. -/
theorem State.context_after_other (s : State) {a : CallerAction} {i : Nat} (h : a.channel ≠ some i) :
    (s.after a).context i = s.context i := by
  unfold State.context
  rw [State.after_store]
  cases hw : a.writes with
  | none => rfl
  | some j =>
    refine Store.read_write_other s.store _ ?_
    rintro rfl
    exact h (CallerAction.channel_of_writes hw)

/-- What the caller owes an action depends on the context of the channel it is for only. -/
theorem State.allows_congr {s t : State} {a : CallerAction}
    (h : ∀ i, a.channel = some i → t.context i = s.context i) (ha : s.allows a) : t.allows a := by
  cases a with
  | request | dirs => trivial
  | configure => exact ha
  | recv i | recvOverlap i | send i =>
    obtain ⟨hi, hc⟩ := ha
    exact ⟨hi, (congrArg Context.configured (h i rfl)).trans hc⟩

/-- The context an action finds is that of its channel. -/
theorem State.contextFor_congr {s t : State} {a : CallerAction}
    (h : ∀ i, a.channel = some i → t.context i = s.context i) : t.contextFor a = s.contextFor a := by
  unfold State.contextFor
  cases hc : a.channel with
  | none => rfl
  | some i => exact h i hc

/-- An action that the caller is prepared for names a channel that exists. -/
theorem State.lt_nch_of_allows {s : State} {a : CallerAction} {i : Nat} (h : s.allows a) (hi : a.channel = some i) :
    i < Config.nch := by
  cases a with
  | request | dirs => cases hi
  | configure => cases hi; exact h
  | recv | recvOverlap | send => cases hi; exact h.1

/-- Writes to two channels that exist give the same store in either order. -/
theorem Store.write_comm {st : Store} {i j : Nat} (c d : Context) (hwf : Store.wf st) (hi : i < Config.nch)
    (hj : j < Config.nch) (hij : i ≠ j) :
    Store.write (Store.write st i c) j d = Store.write (Store.write st j d) i c := by
  have hwi : Store.wf (Store.write st i c) := Store.write_wf c hwf hi
  have hwj : Store.wf (Store.write st j d) := Store.write_wf d hwf hj
  refine Store.ext_of_read (Store.write_wf d hwi hj) (Store.write_wf c hwj hi) fun k => ?_
  by_cases hkj : k = j
  · subst hkj
    rw [Store.read_write_same k d hwi.1, Store.read_write_other _ c hij.symm, Store.read_write_same k d hwf.1]
  · rw [Store.read_write_other _ d hkj]
    by_cases hki : k = i
    · subst hki
      rw [Store.read_write_same k c hwf.1, Store.read_write_same k c hwj.1]
    · rw [Store.read_write_other _ c hki, Store.read_write_other _ c hki, Store.read_write_other _ d hkj]

/-! ## What an action passes on, and for which channel -/

@[simp] theorem emittedFor_append (k : Nat) (es fs : List Emission) :
    emittedFor k (es ++ fs) = emittedFor k es ++ emittedFor k fs := List.filter_append es fs

/-- What one handling passes on belongs to its channel (rule R154). -/
theorem channel_of_mem_handlingEmissions {i : Nat} {c : Context} {t : Telegram} {e : Emission}
    (h : e ∈ handlingEmissions i c t) : e.channel = some i := by
  rcases List.mem_append.1 h with hev | hst
  · unfold eventEmission at hev
    split at hev
    · cases hev
    · rw [List.mem_singleton.1 hev]
      rfl
  · cases hns : contextState c t with
    | none =>
      rw [hns] at hst
      cases hst
    | some v =>
      rw [hns] at hst
      rw [List.mem_singleton.1 hst]
      rfl

/-- What an action passes on belongs to the channel it is for. -/
theorem CallerAction.channel_of_mem_emissions {a : CallerAction} {c : Context} {e : Emission}
    (h : e ∈ a.emissions c) : e.channel = a.channel := by
  cases a with
  | request | configure => cases h
  | dirs | send =>
    rw [List.mem_singleton.1 h]
    rfl
  | recv => exact channel_of_mem_handlingEmissions h
  | recvOverlap => exact (List.mem_append.1 h).elim channel_of_mem_handlingEmissions channel_of_mem_handlingEmissions

/-- An action passes on nothing for any other channel. -/
theorem emittedFor_emissions_other {a : CallerAction} {k : Nat} (c : Context) (h : a.channel ≠ some k) :
    emittedFor k (a.emissions c) = [] := by
  refine List.filter_eq_nil_iff.2 fun e he => ?_
  rw [CallerAction.channel_of_mem_emissions he]
  simpa using h

/-! ## Actions for different channels commute -/

/-- No channel is the one both actions are for. -/
abbrev CallerAction.apart (a b : CallerAction) : Prop := ∀ i, a.channel = some i → b.channel ≠ some i

theorem CallerAction.apart_symm {a b : CallerAction} (h : a.apart b) : b.apart a := fun i hb ha => h i ha hb

/-- An action leaves what an action apart from it finds. -/
theorem State.context_after_apart (s : State) {a b : CallerAction} (h : a.apart b) (i : Nat)
    (hi : b.channel = some i) : (s.after a).context i = s.context i :=
  s.context_after_other (CallerAction.apart_symm h i hi)

/-- The caller stays prepared for an action while it does one apart from it. -/
theorem State.allows_after {s : State} {a b : CallerAction} (h : a.apart b) (hb : s.allows b) : (s.after a).allows b :=
  State.allows_congr (s.context_after_apart h) hb

/-- What was passed on after two actions that are apart. -/
theorem State.after_after_emitted (s : State) {a b : CallerAction} (h : a.apart b) :
    ((s.after a).after b).emitted = s.emitted ++ a.emissions (s.contextFor a) ++ b.emissions (s.contextFor b) := by
  rw [State.after_emitted, State.after_emitted, State.contextFor_congr (s.context_after_apart h)]

/-- For each channel at most one of two actions that are apart passes anything on, so their order cannot be seen. -/
theorem State.emittedFor_after_comm (s : State) {a b : CallerAction} (h : a.apart b) (k : Nat) :
    emittedFor k ((s.after a).after b).emitted = emittedFor k ((s.after b).after a).emitted := by
  rw [State.after_after_emitted s h, State.after_after_emitted s (CallerAction.apart_symm h)]
  by_cases ha : a.channel = some k
  · simp [emittedFor_emissions_other _ (h k ha)]
  · simp [emittedFor_emissions_other _ ha]

/-- The store after two actions that are apart is the same in either order: they write different contexts, and neither
finds the one the other writes. -/
theorem State.store_after_comm {s : State} {a b : CallerAction} (hwf : Store.wf s.store) (ha : s.allows a)
    (hb : s.allows b) (h : a.apart b) : ((s.after a).after b).store = ((s.after b).after a).store := by
  cases hwa : a.writes with
  | none => simp [hwa, State.context]
  | some i =>
    cases hwb : b.writes with
    | none => simp [hwa, hwb, State.context]
    | some j =>
      have hai := CallerAction.channel_of_writes hwa
      have hbj := CallerAction.channel_of_writes hwb
      have hij : i ≠ j := fun e => h i hai (e ▸ hbj)
      have hfindb := s.context_after_apart h j hbj
      have hfinda := s.context_after_apart (CallerAction.apart_symm h) i hai
      simp only [State.after_store, hwa, hwb, Option.elim_some, hfinda, hfindb]
      exact Store.write_comm _ _ hwf (State.lt_nch_of_allows ha hai) (State.lt_nch_of_allows hb hbj) hij

/-- The ports after two actions of which at most one is a request. -/
theorem State.ports_after_comm (s : State) {a b : CallerAction} (h : ∀ w, a.word = some w → b.word = none) :
    ((s.after a).after b).req = ((s.after b).after a).req ∧
    ((s.after a).after b).rsp = ((s.after b).after a).rsp := by
  cases hw : a.word with
  | none => simp [hw]
  | some w => simp [hw, h w hw]

/-- Settles O48: either order is two applications of `State.after`, and the store, the ports and what was passed on for
each channel do not depend on their order. -/
theorem actionsOfDifferentChannelsCommute : Obligations.ActionsOfDifferentChannelsCommute := by
  unfold Obligations.ActionsOfDifferentChannelsCommute
  intro s a b hwf ha hb (hapart : a.apart b) hword
  obtain ⟨hreq, hrsp⟩ := s.ports_after_comm hword
  exact ⟨_, _, run_two_of_allows ha (State.allows_after hapart hb),
    run_two_of_allows hb (State.allows_after (CallerAction.apart_symm hapart) ha),
    State.store_after_comm hwf ha hb hapart, hreq, hrsp, s.emittedFor_after_comm hapart⟩

/-! ## The direction ROM -/

/-- The top bit of both code fields is 0 in every word of the ROM (rules R26, R54). -/
theorem romRead_top_bits (a : BitVec 2) :
    ((romRead a).extractLsb' 3 3).getLsbD 2 = false ∧ ((romRead a).extractLsb' 0 3).getLsbD 2 = false := by
  revert a
  decide

/-- A ROM field whose top bit is 0 is the number of the rocker code it carries. -/
theorem code_romCode {field : BitVec 3} (h : field.getLsbD 2 = false) : (romCode field).code.setWidth 3 = field := by
  rw [romCode, RockerCode.code_ofCode]
  revert field
  decide

/-- Settles O17: the addresses, words and rows are evaluated, and a field is read off its ROM word without loss because
its top bit is 0. -/
theorem directionRomHoldsTheTable : Obligations.DirectionRomHoldsTheTable := by
  unfold Obligations.DirectionRomHoldsTheTable
  refine ⟨by decide, by decide, by decide, fun var ch => ?_⟩
  obtain ⟨h1, h2⟩ := romRead_top_bits (romAddress var ch)
  exact ⟨code_romCode h1, code_romCode h2⟩

/-! ## The stops of the caller's actions -/

/-- An action for an identifier that no context exists for faults (decision D26). -/
theorem handle_of_nch_le {s : State} {a : CallerAction} {i : Nat} (ha : a.channel = some i) (hi : Config.nch ≤ i) :
    handle a s = .fault (.noSuchChannel i) := by
  have stops (k : Context → Host.Outcome State Fault Refusal) : s.onChannel i k = .fault (.noSuchChannel i) :=
    if_neg (Nat.not_lt.2 hi)
  cases a with
  | request | dirs => cases ha
  | configure | recv | recvOverlap | send =>
    cases ha
    simp only [handle, configure, recv, recvOverlap, send, State.onConfigured, stops]

/-- An action for an existing channel whose `CFG` was never written is refused, unless it writes it (U12). -/
theorem handle_of_unconfigured {s : State} {a : CallerAction} {i : Nat} (ha : a.channel = some i)
    (hcfg : ∀ cfg, a ≠ .configure i cfg) (hi : i < Config.nch) (hc : (s.context i).configured = false) :
    handle a s = .refused (.channelNotConfigured i) := by
  have stops (k : Context → Host.Outcome State Fault Refusal) :
      s.onConfigured i k = .refused (.channelNotConfigured i) := by
    rw [State.onConfigured, State.onChannel_of_lt hi, if_neg (by simp [hc])]
  cases a with
  | request | dirs => cases ha
  | configure j cfg =>
    cases ha
    exact absurd rfl (hcfg cfg)
  | recv | recvOverlap | send =>
    cases ha
    simp only [handle, recv, recvOverlap, send, stops]

/-- Settles O45: the step is the handling of the action, which stops where it reaches its channel. -/
theorem unpreparedActionsStopByName : Obligations.UnpreparedActionsStopByName := by
  unfold Obligations.UnpreparedActionsStopByName
  intro s i t t' cmd cfg rest
  constructor
  · intro hi hc
    have refused (a : CallerAction) (ha : a.channel = some i) (hcfg : ∀ cfg, a ≠ .configure i cfg) :
        step { s with inbox := a :: rest } = .refused (.channelNotConfigured i) :=
      (step_cons rfl).trans (handle_of_unconfigured (s := { s with inbox := rest }) ha hcfg hi hc)
    exact ⟨refused _ rfl nofun, refused _ rfl nofun, refused _ rfl nofun⟩
  · intro hi
    have faults (a : CallerAction) (ha : a.channel = some i) :
        step { s with inbox := a :: rest } = .fault (.noSuchChannel i) :=
      (step_cons rfl).trans (handle_of_nch_le (s := { s with inbox := rest }) ha hi)
    exact ⟨faults _ rfl, faults _ rfl, faults _ rfl, faults _ rfl⟩

end Sys2Proof.Machine

/-!
PROOFS. The statements of 30_encoding.md: the decoder and the encoder undo each other, the rows of the opcode map and
the words they take, the four cases of an invalid word, and the strings of the caller.
-/

namespace Sys2Proof

/-! ## Fields of a word built from placed fields -/

@[simp] theorem bits_or (a b : Word) (lo n : Nat) : bits (a ||| b) lo n = bits a lo n ||| bits b lo n :=
  BitVec.extractLsb'_or

@[simp] theorem bits_and (a b : Word) (lo n : Nat) : bits (a &&& b) lo n = bits a lo n &&& bits b lo n :=
  BitVec.extractLsb'_and

/-- A field is read back from where it was placed (rule R55). -/
@[simp] theorem bits_place_same {n : Nat} (v : BitVec n) {lo : Nat} (h : lo + n ≤ 32) : bits (place v lo) lo n = v := by
  apply BitVec.eq_of_getLsbD_eq
  intro k hk
  have : lo + k < 32 := by omega
  rw [getLsbD_bits, getLsbD_place]
  simp [hk, this]

/-- A placed field leaves the fields beside it 0. -/
@[simp] theorem bits_place_of_disjoint {m n : Nat} (v : BitVec m) {lo lo' : Nat} (h : lo + m ≤ lo' ∨ lo' + n ≤ lo) :
    bits (place v lo) lo' n = 0#n := by
  apply BitVec.eq_of_getLsbD_eq
  intro k hk
  rw [getLsbD_bits, getLsbD_place, BitVec.getLsbD_zero]
  rcases h with above | below
  · have : v.getLsbD (lo' + k - lo) = false := BitVec.getLsbD_of_ge _ _ (by omega)
    simp [this]
  · have : ¬ lo ≤ lo' + k := by omega
    simp [this]

/-- A flag is the field of one bit at its place. -/
theorem flag_eq_bits (w : Word) (i : Nat) : flag w i = (bits w i 1).getLsbD 0 := by
  rw [getLsbD_bits]
  simp [flag]

theorem ofBool_flag (w : Word) (i : Nat) : BitVec.ofBool (flag w i) = bits w i 1 := by
  rw [flag_eq_bits]
  generalize bits w i 1 = v
  revert v
  decide

/-! ## A word as the join of its fields -/

/-- The field of `n` bits from bit `lo` of a word, at its place, every other bit 0. -/
def fieldOf (w : Word) (lo n : Nat) : Word := place (bits w lo n) lo

theorem getLsbD_fieldOf (w : Word) (lo n k : Nat) :
    (fieldOf w lo n).getLsbD k = (decide (lo ≤ k ∧ k < lo + n) && w.getLsbD k) := by
  rw [fieldOf, getLsbD_place, getLsbD_bits]
  by_cases hlo : lo ≤ k
  · have hsub : lo + (k - lo) = k := by omega
    have hlt : k - lo < n ↔ k < lo + n := by omega
    by_cases hk : k < 32
    · simp [hlo, hk, hsub, hlt]
    · simp [hk, BitVec.getLsbD_of_ge w k (by omega)]
  · simp [hlo]

/-- Two fields that meet are one field. -/
theorem fieldOf_or_fieldOf (w : Word) {lo hi m n : Nat} (h : hi = lo + n) :
    fieldOf w hi m ||| fieldOf w lo n = fieldOf w lo (n + m) := by
  apply BitVec.eq_of_getLsbD_eq
  intro k hk
  rw [BitVec.getLsbD_or, getLsbD_fieldOf, getLsbD_fieldOf, getLsbD_fieldOf, ← Bool.and_or_distrib_right,
    ← Bool.decide_or]
  congr 2
  rw [eq_iff_iff]
  omega

/-- The field of all 32 bits is the word. -/
theorem fieldOf_all (w : Word) : fieldOf w 0 32 = w := by
  apply BitVec.eq_of_getLsbD_eq
  intro k hk
  rw [getLsbD_fieldOf]
  simp [hk]

theorem fieldOf_eq_zero {w : Word} {lo n : Nat} (h : bits w lo n = 0#n) : fieldOf w lo n = 0#32 := by
  rw [fieldOf, h]
  simp [place]

theorem place_bits (w : Word) (lo n : Nat) : place (bits w lo n) lo = fieldOf w lo n := rfl

theorem placeFlag_flag (w : Word) (i : Nat) : placeFlag (flag w i) i = fieldOf w i 1 := by
  rw [placeFlag, ofBool_flag, place_bits]

theorem place_variantOf (w : Word) : place (variantOf w).bit 10 = fieldOf w 10 1 := by
  rw [variantOf, Variant.bit_ofBit, place_bits]

theorem place_channelOf (w : Word) : place (channelOf w).bit 11 = fieldOf w 11 1 := by
  rw [channelOf, Channel.bit_ofBit, place_bits]

/-- The telegram of a word, at its place, is the word's ten low bits (rule R48). -/
theorem placeTelegram_telegramOf (w : Word) : placeTelegram (telegramOf w) = fieldOf w 0 10 := by
  calc placeTelegram (telegramOf w)
      = fieldOf w 9 1 ||| fieldOf w 8 1 ||| fieldOf w 0 8 := by
        simp only [placeTelegram, telegramOf, placeFlag_flag, place_bits]
    _ = fieldOf w 0 10 := by simp [fieldOf_or_fieldOf]

/-! ## The four formats, each with its forms as one -/

/-- The `DECEV` request that `ACT` selects (rule R42). -/
def decevOf (act : Bool) (t : Telegram) (var : Variant) (ch : Channel) (last : BitVec 3) : Instr :=
  if act then .decevAct t var ch last else .decevDir t var ch last

/-- The `NXTST` request that `MODE` selects (rule R43). -/
def nxtstOf (mode : SwitchMode) (t : Telegram) (d1c d2c : RockerCode) (hsa ud csv csb : Bool) : Instr :=
  match mode with
  | .rocker => .nxtstRocker t d1c d2c hsa ud csv csb
  | .toggleOnDir1 => .nxtstTgl1 t d1c d2c hsa ud csv csb
  | .toggleOnDir2 => .nxtstTgl2 t d1c d2c hsa ud csv csb

/-- The `ENCMD` request that `CMD` selects (rule R44). -/
def encmdOf (cmd : Command) (var : Variant) (ch : Channel) : Instr :=
  match cmd with
  | .dir1Pressed => .encmdD1P var ch
  | .dir1Released => .encmdD1R var ch
  | .dir2Pressed => .encmdD2P var ch
  | .dir2Released => .encmdD2R var ch

/-- What holds of the requests of each format holds of every request. -/
theorem Instr.byFormat {P : Instr → Prop} (decev : ∀ act t var ch last, P (decevOf act t var ch last))
    (nxtst : ∀ mode t d1c d2c hsa ud csv csb, P (nxtstOf mode t d1c d2c hsa ud csv csb))
    (encmd : ∀ cmd var ch, P (encmdOf cmd var ch)) (teach : ∀ t var, P (.teach t var)) (i : Instr) : P i := by
  cases i with
  | decevDir t var ch last => exact decev false t var ch last
  | decevAct t var ch last => exact decev true t var ch last
  | nxtstRocker t d1c d2c hsa ud csv csb => exact nxtst .rocker t d1c d2c hsa ud csv csb
  | nxtstTgl1 t d1c d2c hsa ud csv csb => exact nxtst .toggleOnDir1 t d1c d2c hsa ud csv csb
  | nxtstTgl2 t d1c d2c hsa ud csv csb => exact nxtst .toggleOnDir2 t d1c d2c hsa ud csv csb
  | encmdD1P var ch => exact encmd .dir1Pressed var ch
  | encmdD1R var ch => exact encmd .dir1Released var ch
  | encmdD2P var ch => exact encmd .dir2Pressed var ch
  | encmdD2R var ch => exact encmd .dir2Released var ch
  | teach t var => exact teach t var

section Formats

variable (act : Bool) (mode : SwitchMode) (cmd : Command) (t : Telegram) (var : Variant) (ch : Channel)
  (last : BitVec 3) (d1c d2c : RockerCode) (hsa ud csv csb : Bool)

@[simp] theorem encode_decevOf : encode (decevOf act t var ch last) = encodeD act t var ch last := by
  cases act <;> rfl

@[simp] theorem encode_nxtstOf :
    encode (nxtstOf mode t d1c d2c hsa ud csv csb) = encodeN mode t d1c d2c hsa ud csv csb := by
  cases mode <;> rfl

@[simp] theorem encode_encmdOf : encode (encmdOf cmd var ch) = encodeE cmd var ch := by
  cases cmd <;> rfl

@[simp] theorem encode_teach : encode (.teach t var) = encodeT t var := rfl

@[simp] theorem wf_decevOf : (decevOf act t var ch last).wf = lastValid last := by
  cases act <;> rfl

@[simp] theorem wf_nxtstOf : (nxtstOf mode t d1c d2c hsa ud csv csb).wf = stateValid csv csb := by
  cases mode <;> rfl

@[simp] theorem wf_encmdOf : (encmdOf cmd var ch).wf = true := by
  cases cmd <;> rfl

@[simp] theorem wf_teach : (Instr.teach t var).wf = true := rfl

theorem lastValid_iff : lastValid last = true ↔ last ≠ 7#3 := by
  simp [lastValid]

theorem stateValid_iff : stateValid csv csb = true ↔ ¬ (csv = false ∧ csb = true) := by
  cases csv <;> simp [stateValid]

/-! ## Decoding an encoded request -/

theorem place_op_nxtst : place 1#2 30 = 0x40000000#32 := by decide
theorem place_op_encmd : place 2#2 30 = 0x80000000#32 := by decide
theorem place_op_teach : place 3#2 30 = 0xC0000000#32 := by decide

/-- A format D word decodes to its own request, unless `LAST` = 7 (rules R42, R53). -/
theorem decode_encodeD : decode (encodeD act t var ch last) =
    if last = 7#3 then .error .reservedLast else .ok (decevOf act t var ch last) := by
  cases act <;>
    simp [decode, decodeD, encodeD, decevOf, placeTelegram, placeFlag, telegramOf, variantOf, channelOf, flag_eq_bits]

/-- The `MODE` field of a format N word selects the form (rule R43). -/
theorem decodeMode_of_mode {w : Word} {mode : SwitchMode} (h : bits w 15 2 = mode.code) :
    decodeMode w = .ok (nxtstOf mode (telegramOf w) (RockerCode.ofCode (bits w 10 2)) (RockerCode.ofCode (bits w 12 2))
      (flag w 14) (flag w 17) (flag w 18) (flag w 19)) := by
  cases mode <;> simp [decodeMode, h, SwitchMode.code, nxtstOf]

/-- A format N word decodes to its own request, unless `CSB` is set without `CSV` (rules R43, R52). -/
theorem decode_encodeN : decode (encodeN mode t d1c d2c hsa ud csv csb) =
    if csv = false ∧ csb = true then .error .stateValueWithoutValid
    else .ok (nxtstOf mode t d1c d2c hsa ud csv csb) := by
  have hmode : bits (encodeN mode t d1c d2c hsa ud csv csb) 15 2 = mode.code := by
    rw [encodeN, ← place_op_nxtst]
    simp [placeTelegram, placeFlag]
  rw [decode, decodeN, decodeMode_of_mode hmode, encodeN, ← place_op_nxtst]
  simp [placeTelegram, placeFlag, telegramOf, flag_eq_bits]

/-- The `CMD` field of a format E word selects the form (rule R44). -/
theorem decode_encodeE : decode (encodeE cmd var ch) = .ok (encmdOf cmd var ch) := by
  rw [encodeE, ← place_op_encmd]
  cases cmd <;> simp [decode, decodeE, encmdOf, variantOf, channelOf, Command.code]

/-- A format T word decodes to its own request (rule R45). -/
theorem decode_encodeT : decode (encodeT t var) = .ok (.teach t var) := by
  rw [encodeT, ← place_op_teach]
  simp [decode, decodeT, placeTelegram, placeFlag, telegramOf, variantOf, flag_eq_bits]

end Formats

/-- Settles O1, by the format of the request. -/
theorem decodeReadsBackEveryValidRequest : Obligations.DecodeReadsBackEveryValidRequest := by
  unfold Obligations.DecodeReadsBackEveryValidRequest
  intro i hwf
  induction i using Instr.byFormat with
  | decev act t var ch last =>
    rw [wf_decevOf, lastValid_iff] at hwf
    rw [encode_decevOf, decode_encodeD, if_neg hwf]
  | nxtst mode t d1c d2c hsa ud csv csb =>
    rw [wf_nxtstOf, stateValid_iff] at hwf
    rw [encode_nxtstOf, decode_encodeN, if_neg hwf]
  | encmd cmd var ch => rw [encode_encmdOf, decode_encodeE]
  | teach t var => exact decode_encodeT t var

/-- The word of an ill-formed request is refused (rules R52, R53, R57). -/
theorem decode_encode_of_ill_formed {i : Instr} (h : i.wf = false) : ∃ e, decode (encode i) = .error e := by
  induction i using Instr.byFormat with
  | decev act t var ch last =>
    have hlast : last = 7#3 := by
      rw [wf_decevOf] at h
      simpa [h] using lastValid_iff last
    exact ⟨.reservedLast, by rw [encode_decevOf, decode_encodeD, if_pos hlast]⟩
  | nxtst mode t d1c d2c hsa ud csv csb =>
    have hstate : csv = false ∧ csb = true := by
      rw [wf_nxtstOf] at h
      simpa [h] using stateValid_iff csv csb
    exact ⟨.stateValueWithoutValid, by rw [encode_nxtstOf, decode_encodeN, if_pos hstate]⟩
  | encmd cmd var ch => simp at h
  | teach t var => simp at h

/-! ## What an accepted word is -/

/-- What the decoder reads from a word it accepts, format by format, with all that it has found of the word
(`reads_of_decode`). -/
inductive Reads (w : Word) : Instr → Prop where
  /-- Format D (rule R42). -/
  | decev (hop : bits w 30 2 = 0#2) (hreserved : bits w 16 14 = 0#14) (hlast : bits w 13 3 ≠ 7#3) :
    Reads w (decevOf (flag w 12) (telegramOf w) (variantOf w) (channelOf w) (bits w 13 3))
  /-- Format N (rule R43). -/
  | nxtst (mode : SwitchMode) (hop : bits w 30 2 = 1#2) (hreserved : bits w 20 10 = 0#10)
    (hstate : ¬ (flag w 18 = false ∧ flag w 19 = true)) (hmode : bits w 15 2 = mode.code) :
    Reads w (nxtstOf mode (telegramOf w) (RockerCode.ofCode (bits w 10 2)) (RockerCode.ofCode (bits w 12 2))
      (flag w 14) (flag w 17) (flag w 18) (flag w 19))
  /-- Format E (rule R44). -/
  | encmd (cmd : Command) (hop : bits w 30 2 = 2#2) (hhigh : bits w 14 16 = 0#16) (hlow : bits w 0 10 = 0#10)
    (hcmd : bits w 12 2 = cmd.code) : Reads w (encmdOf cmd (variantOf w) (channelOf w))
  /-- Format T (rule R45). -/
  | teach (hop : bits w 30 2 = 3#2) (hreserved : bits w 11 19 = 0#19) :
    Reads w (.teach (telegramOf w) (variantOf w))

/-- Two bits have four values. -/
theorem eq_three_of_ne {v : BitVec 2} (h0 : v ≠ 0#2) (h1 : v ≠ 1#2) (h2 : v ≠ 2#2) : v = 3#2 := by
  revert v
  decide

theorem reads_of_decodeD {w : Word} {i : Instr} (hop : bits w 30 2 = 0#2) (h : decodeD w = .ok i) : Reads w i := by
  have forms : decodeD w = if bits w 16 14 ≠ 0#14 then .error .reservedBit
      else if bits w 13 3 = 7#3 then .error .reservedLast
      else .ok (decevOf (flag w 12) (telegramOf w) (variantOf w) (channelOf w) (bits w 13 3)) := by
    unfold decodeD decevOf
    cases flag w 12 <;> rfl
  rw [forms] at h
  split_ifs at h with hreserved hlast
  cases h
  exact .decev hop (not_not.1 hreserved) hlast

theorem reads_of_decodeN {w : Word} {i : Instr} (hop : bits w 30 2 = 1#2) (h : decodeN w = .ok i) : Reads w i := by
  unfold decodeN decodeMode at h
  split_ifs at h with hreserved hstate h0 h1 h2
  · cases h
    exact .nxtst .rocker hop (not_not.1 hreserved) hstate h0
  · cases h
    exact .nxtst .toggleOnDir1 hop (not_not.1 hreserved) hstate h1
  · cases h
    exact .nxtst .toggleOnDir2 hop (not_not.1 hreserved) hstate h2

theorem reads_of_decodeE {w : Word} {i : Instr} (hop : bits w 30 2 = 2#2) (h : decodeE w = .ok i) : Reads w i := by
  unfold decodeE at h
  split_ifs at h with hhigh hlow h0 h1 h2
  · cases h
    exact .encmd .dir1Pressed hop (not_not.1 hhigh) (not_not.1 hlow) h0
  · cases h
    exact .encmd .dir1Released hop (not_not.1 hhigh) (not_not.1 hlow) h1
  · cases h
    exact .encmd .dir2Pressed hop (not_not.1 hhigh) (not_not.1 hlow) h2
  · cases h
    exact .encmd .dir2Released hop (not_not.1 hhigh) (not_not.1 hlow) (eq_three_of_ne h0 h1 h2)

theorem reads_of_decodeT {w : Word} {i : Instr} (hop : bits w 30 2 = 3#2) (h : decodeT w = .ok i) : Reads w i := by
  unfold decodeT at h
  split_ifs at h with hreserved
  cases h
  exact .teach hop (not_not.1 hreserved)

/-- All that an accepted word can be. -/
theorem reads_of_decode {w : Word} {i : Instr} (h : decode w = .ok i) : Reads w i := by
  unfold decode at h
  split_ifs at h with h0 h1 h2
  · exact reads_of_decodeD h0 h
  · exact reads_of_decodeN h1 h
  · exact reads_of_decodeE h2 h
  · exact reads_of_decodeT (eq_three_of_ne h0 h1 h2) h

/-- The request the decoder reads is valid (rule R56). -/
theorem Reads.wf {w : Word} {i : Instr} (h : Reads w i) : i.wf = true := by
  cases h with
  | decev hop hreserved hlast => rwa [wf_decevOf, lastValid_iff]
  | nxtst mode hop hreserved hstate hmode => rwa [wf_nxtstOf, stateValid_iff]
  | encmd => exact wf_encmdOf ..
  | teach => rfl

/-- The fields the decoder reads, with the operation code and the zeros it checks, are all of the word. -/
theorem Reads.encode_eq {w : Word} {i : Instr} (h : Reads w i) : encode i = w := by
  cases h with
  | decev hop hreserved hlast =>
    calc encode (decevOf (flag w 12) (telegramOf w) (variantOf w) (channelOf w) (bits w 13 3))
        = fieldOf w 30 2 ||| fieldOf w 16 14 ||| fieldOf w 13 3 ||| fieldOf w 12 1 ||| fieldOf w 11 1 |||
            fieldOf w 10 1 ||| fieldOf w 0 10 := by
          rw [fieldOf_eq_zero hop, fieldOf_eq_zero hreserved, encode_decevOf, encodeD, place_bits, placeFlag_flag,
            place_channelOf, place_variantOf, placeTelegram_telegramOf, BitVec.zero_or, BitVec.zero_or]
      _ = fieldOf w 0 32 := by simp [fieldOf_or_fieldOf]
      _ = w := fieldOf_all w
  | nxtst mode hop hreserved hstate hmode =>
    calc encode (nxtstOf mode (telegramOf w) (RockerCode.ofCode (bits w 10 2))
          (RockerCode.ofCode (bits w 12 2)) (flag w 14) (flag w 17) (flag w 18) (flag w 19))
        = fieldOf w 30 2 ||| fieldOf w 20 10 ||| fieldOf w 19 1 ||| fieldOf w 18 1 ||| fieldOf w 17 1 |||
            fieldOf w 15 2 ||| fieldOf w 14 1 ||| fieldOf w 12 2 ||| fieldOf w 10 2 ||| fieldOf w 0 10 := by
          simp only [fieldOf_eq_zero hreserved, encode_nxtstOf, encodeN, ← place_op_nxtst, ← hop, ← hmode, place_bits,
            placeFlag_flag, RockerCode.code_ofCode, placeTelegram_telegramOf, BitVec.or_zero]
      _ = fieldOf w 0 32 := by simp [fieldOf_or_fieldOf]
      _ = w := fieldOf_all w
  | encmd cmd hop hhigh hlow hcmd =>
    calc encode (encmdOf cmd (variantOf w) (channelOf w))
        = fieldOf w 30 2 ||| fieldOf w 14 16 ||| fieldOf w 12 2 ||| fieldOf w 11 1 ||| fieldOf w 10 1 |||
            fieldOf w 0 10 := by
          simp only [fieldOf_eq_zero hhigh, fieldOf_eq_zero hlow, encode_encmdOf, encodeE, ← place_op_encmd, ← hop,
            ← hcmd, place_bits, place_channelOf, place_variantOf, BitVec.or_zero]
      _ = fieldOf w 0 32 := by simp [fieldOf_or_fieldOf]
      _ = w := fieldOf_all w
  | teach hop hreserved =>
    calc encode (.teach (telegramOf w) (variantOf w))
        = fieldOf w 30 2 ||| fieldOf w 11 19 ||| fieldOf w 10 1 ||| fieldOf w 0 10 := by
          simp only [fieldOf_eq_zero hreserved, encode_teach, encodeT, ← place_op_teach, ← hop, place_bits,
            place_variantOf, placeTelegram_telegramOf, BitVec.or_zero]
      _ = fieldOf w 0 32 := by simp [fieldOf_or_fieldOf]
      _ = w := fieldOf_all w

/-- Settles O2, by what the decoder has found of a word it accepts. -/
theorem encodeWritesBackEveryDecodedWord : Obligations.EncodeWritesBackEveryDecodedWord := by
  unfold Obligations.EncodeWritesBackEveryDecodedWord
  intro w i h
  exact ⟨(reads_of_decode h).wf, (reads_of_decode h).encode_eq⟩

/-! ## The opcode map -/

theorem OpcodeRow.selects_iff {r : OpcodeRow} {w : Word} : r.selects w = true ↔ w &&& r.mask = r.pattern := by
  simp [OpcodeRow.selects]

/-- Every form stands in a row of the map. -/
theorem Instr.row_mem (i : Instr) : i.row ∈ opcodeMap := by
  cases i <;> simp [Instr.row, opcodeMap]

/-- The row of a form selects the word of every request of the form (rule R56). -/
theorem Instr.row_selects_encode (i : Instr) : i.row.selects (encode i) = true := by
  cases i with
  | decevDir => exact Laws.RowMatch.decevDir ..
  | decevAct => exact Laws.RowMatch.decevAct ..
  | nxtstRocker => exact Laws.RowMatch.nxtstRocker ..
  | nxtstTgl1 => exact Laws.RowMatch.nxtstTgl1 ..
  | nxtstTgl2 => exact Laws.RowMatch.nxtstTgl2 ..
  | encmdD1P => exact Laws.RowMatch.encmdD1P ..
  | encmdD1R => exact Laws.RowMatch.encmdD1R ..
  | encmdD2P => exact Laws.RowMatch.encmdD2P ..
  | encmdD2R => exact Laws.RowMatch.encmdD2R ..
  | teach => exact Laws.RowMatch.teach ..

/-- Any two rows of the map differ in a bit that both look at. -/
theorem opcodeMap_disjoint :
    ∀ r ∈ opcodeMap, ∀ q ∈ opcodeMap, r.pattern &&& q.mask = q.pattern &&& r.mask → r = q := by
  decide

/-- At most one row selects a word (rule R56). -/
theorem row_unique {r q : OpcodeRow} {w : Word} (hr : r ∈ opcodeMap) (hq : q ∈ opcodeMap)
    (hrw : r.selects w = true) (hqw : q.selects w = true) : r = q := by
  apply opcodeMap_disjoint r hr q hq
  rw [← OpcodeRow.selects_iff.1 hrw, ← OpcodeRow.selects_iff.1 hqw, BitVec.and_assoc, BitVec.and_assoc,
    BitVec.and_comm r.mask]

/-- The row of the request the decoder reads selects the word. -/
theorem Reads.row_selects {w : Word} {i : Instr} (h : Reads w i) : i.row.selects w = true := by
  rw [← h.encode_eq]
  exact i.row_selects_encode

/-- Settles O5: the row of the form selects the word, and no other row does. -/
theorem validWordMatchesExactlyOneRow : Obligations.ValidWordMatchesExactlyOneRow := by
  unfold Obligations.ValidWordMatchesExactlyOneRow
  intro w i h
  have hsel := (reads_of_decode h).row_selects
  refine ⟨i.row_mem, fun r hr => ⟨fun hrw => row_unique hr i.row_mem hrw hsel, ?_⟩⟩
  rintro rfl
  exact hsel

/-! ## The fields of the words a row selects -/

/-- The fields of a row's pattern are those of the words it selects, where its mask covers them. -/
theorem bits_of_selects {r : OpcodeRow} {w : Word} {lo n : Nat} (h : r.selects w = true)
    (hmask : bits r.mask lo n = BitVec.allOnes n) : bits w lo n = bits r.pattern lo n := by
  rw [← OpcodeRow.selects_iff.1 h, bits_and, hmask, BitVec.and_allOnes]

/-- A row whose mask covers a field, with zeros for it in the pattern. -/
abbrev OpcodeRow.clears (r : OpcodeRow) (lo n : Nat) : Prop :=
  bits r.mask lo n = BitVec.allOnes n ∧ bits r.pattern lo n = 0#n

theorem bits_of_clears {r : OpcodeRow} {w : Word} {lo n : Nat} (h : r.selects w = true) (hc : r.clears lo n) :
    bits w lo n = 0#n :=
  (bits_of_selects h hc.1).trans hc.2

/-- Every row fixes the operation code. -/
theorem op_of_selects {r : OpcodeRow} {w : Word} (hr : r ∈ opcodeMap) (h : r.selects w = true) :
    bits w 30 2 = bits r.pattern 30 2 := by
  have covered : ∀ r ∈ opcodeMap, bits r.mask 30 2 = BitVec.allOnes 2 := by decide
  exact bits_of_selects h (covered r hr)

/-- The rows of format D (rule R42). -/
theorem rows_of_op_decev : ∀ r ∈ opcodeMap, bits r.pattern 30 2 = 0#2 →
    r.clears 16 14 ∧ (r = rowDecevDir ∨ r = rowDecevAct) := by
  decide

/-- The rows of format N: none has `MODE` = 3 (rule R43). -/
theorem rows_of_op_nxtst : ∀ r ∈ opcodeMap, bits r.pattern 30 2 = 1#2 →
    r.clears 20 10 ∧ (bits r.mask 15 2 = BitVec.allOnes 2 ∧ bits r.pattern 15 2 ≠ 3#2) ∧
      (r = rowNxtstRocker ∨ r = rowNxtstTgl1 ∨ r = rowNxtstTgl2) := by
  decide

/-- The rows of format E (rule R44). -/
theorem rows_of_op_encmd : ∀ r ∈ opcodeMap, bits r.pattern 30 2 = 2#2 →
    r.clears 14 16 ∧ r.clears 0 10 := by
  decide

/-- The row of format T (rule R45). -/
theorem rows_of_op_teach : ∀ r ∈ opcodeMap, bits r.pattern 30 2 = 3#2 → r.clears 11 19 := by
  decide

end Sys2Proof

namespace Sys2Proof.Machine

/-! ## The invalid request words -/

/-- The extra condition of the rows of format D. -/
theorem rowCondition_decev {r : OpcodeRow} {w : Word} (h : r = rowDecevDir ∨ r = rowDecevAct) :
    rowCondition r w ↔ bits w 13 3 ≠ 7#3 := by
  rw [rowCondition, if_pos h]

/-- The extra condition of the rows of format N. -/
theorem rowCondition_nxtst {r : OpcodeRow} {w : Word} (h : r = rowNxtstRocker ∨ r = rowNxtstTgl1 ∨ r = rowNxtstTgl2) :
    rowCondition r w ↔ ¬ (w.getLsbD 18 = false ∧ w.getLsbD 19 = true) := by
  have notDecev : ¬ (r = rowDecevDir ∨ r = rowDecevAct) := by
    rcases h with rfl | rfl | rfl <;> decide
  rw [rowCondition, if_neg notDecev, if_pos h]

/-- The rows of formats E and T have no extra condition. -/
theorem rowCondition_of_op {r : OpcodeRow} {w : Word} (hr : r ∈ opcodeMap)
    (hop : bits r.pattern 30 2 = 2#2 ∨ bits r.pattern 30 2 = 3#2) : rowCondition r w := by
  have others : ∀ r ∈ opcodeMap, bits r.pattern 30 2 = 2#2 ∨ bits r.pattern 30 2 = 3#2 →
      ¬ (r = rowDecevDir ∨ r = rowDecevAct) ∧ ¬ (r = rowNxtstRocker ∨ r = rowNxtstTgl1 ∨ r = rowNxtstTgl2) := by
    decide
  obtain ⟨notDecev, notNxtst⟩ := others r hr hop
  rw [rowCondition, if_neg notDecev, if_neg notNxtst]
  trivial

/-- A word with a reserved bit set is in no row (rule R57, first case). -/
theorem not_reservedBitSet_of_selects {r : OpcodeRow} {w : Word} (hr : r ∈ opcodeMap) (h : r.selects w = true) :
    ¬ reservedBitSet w := by
  rw [reservedBitSet, op_of_selects hr h]
  rintro (⟨hop, hset⟩ | ⟨hop, hset⟩ | ⟨hop, hset | hset⟩ | ⟨hop, hset⟩)
  · exact hset (bits_of_clears h (rows_of_op_decev r hr hop).1)
  · exact hset (bits_of_clears h (rows_of_op_nxtst r hr hop).1)
  · exact hset (bits_of_clears h (rows_of_op_encmd r hr hop).1)
  · exact hset (bits_of_clears h (rows_of_op_encmd r hr hop).2)
  · exact hset (bits_of_clears h (rows_of_op_teach r hr hop))

/-- A word that a row selects and whose extra condition it meets is in none of the four cases of rule R57. -/
theorem not_invalidWord_of_row {r : OpcodeRow} {w : Word} (hr : r ∈ opcodeMap) (h : r.selects w = true)
    (hcond : rowCondition r w) : ¬ invalidWord w := by
  rintro (hreserved | ⟨hop, hmode⟩ | ⟨hop, hstate⟩ | ⟨hop, hlast⟩)
  · exact not_reservedBitSet_of_selects hr h hreserved
  · obtain ⟨-, ⟨hmask, hne⟩, -⟩ := rows_of_op_nxtst r hr ((op_of_selects hr h).symm.trans hop)
    exact hne ((bits_of_selects h hmask).symm.trans hmode)
  · obtain ⟨-, -, hrow⟩ := rows_of_op_nxtst r hr ((op_of_selects hr h).symm.trans hop)
    exact (rowCondition_nxtst hrow).1 hcond hstate
  · obtain ⟨-, hrow⟩ := rows_of_op_decev r hr ((op_of_selects hr h).symm.trans hop)
    exact (rowCondition_decev hrow).1 hcond hlast

/-- A word the decoder accepts meets the extra condition of the row that selects it. -/
theorem rowCondition_of_reads {r : OpcodeRow} {w : Word} {i : Instr} (h : Reads w i) (hr : r ∈ opcodeMap)
    (hsel : r.selects w = true) : rowCondition r w := by
  have hpattern : bits r.pattern 30 2 = bits w 30 2 := (op_of_selects hr hsel).symm
  cases h with
  | decev hop hreserved hlast =>
    obtain ⟨-, hrow⟩ := rows_of_op_decev r hr (hpattern.trans hop)
    exact (rowCondition_decev hrow).2 hlast
  | nxtst mode hop hreserved hstate hmode =>
    obtain ⟨-, -, hrow⟩ := rows_of_op_nxtst r hr (hpattern.trans hop)
    exact (rowCondition_nxtst hrow).2 hstate
  | encmd cmd hop hhigh hlow hcmd => exact rowCondition_of_op hr (.inl (hpattern.trans hop))
  | teach hop hreserved => exact rowCondition_of_op hr (.inr (hpattern.trans hop))

/-- A word the decoder refuses is in one of the four cases of rule R57. -/
theorem invalidWord_of_decode_error {w : Word} {e : DecodeError} (h : decode w = .error e) : invalidWord w := by
  unfold decode at h
  split_ifs at h with h0 h1 h2
  · unfold decodeD at h
    split_ifs at h with hreserved hlast
    · exact .inl (.inl ⟨h0, hreserved⟩)
    · exact .inr (.inr (.inr ⟨h0, hlast⟩))
  · unfold decodeN decodeMode at h
    split_ifs at h with hreserved hstate m0 m1 m2
    · exact .inl (.inr (.inl ⟨h1, hreserved⟩))
    · exact .inr (.inr (.inl ⟨h1, hstate⟩))
    · exact .inr (.inl ⟨h1, eq_three_of_ne m0 m1 m2⟩)
  · unfold decodeE at h
    split_ifs at h with hhigh hlow
    · exact .inl (.inr (.inr (.inl ⟨h2, .inl hhigh⟩)))
    · exact .inl (.inr (.inr (.inl ⟨h2, .inr hlow⟩)))
  · unfold decodeT at h
    split_ifs at h with hreserved
    exact .inl (.inr (.inr (.inr ⟨eq_three_of_ne h0 h1 h2, hreserved⟩)))

/-- A word the decoder accepts is in a row, with its extra condition. -/
theorem exists_row_of_decode {w : Word} {i : Instr} (h : decode w = .ok i) :
    ∃ r ∈ opcodeMap, r.selects w = true ∧ rowCondition r w :=
  have hreads := reads_of_decode h
  ⟨i.row, i.row_mem, hreads.row_selects, rowCondition_of_reads hreads i.row_mem hreads.row_selects⟩

/-- The words in a row, with its extra condition, are those in none of the four cases of rule R57. -/
theorem exists_row_iff (w : Word) :
    (∃ r ∈ opcodeMap, r.selects w = true ∧ rowCondition r w) ↔ ¬ invalidWord w := by
  constructor
  · rintro ⟨r, hr, hsel, hcond⟩
    exact not_invalidWord_of_row hr hsel hcond
  · intro hvalid
    cases h : decode w with
    | ok i => exact exists_row_of_decode h
    | error e => exact absurd (invalidWord_of_decode_error h) hvalid

/-- The core answers `INV` to an invalid word (rule R57). -/
theorem blockResponse_of_invalidWord {w : Word} (h : invalidWord w) : blockResponse w = invResponse := by
  unfold blockResponse
  cases hd : decode w with
  | ok i => exact absurd h ((exists_row_iff w).1 (exists_row_of_decode hd))
  | error e => rfl

/-- Settles O4: the words in a row are those in none of the four cases, and every word the decoder accepts
is in a row. -/
theorem invalidWordsAnswerInv : Obligations.InvalidWordsAnswerInv := by
  unfold Obligations.InvalidWordsAnswerInv
  intro w
  refine ⟨by rw [exists_row_iff, not_not], ?_⟩
  rintro hinv s hidle rfl
  rw [step_nil hidle, runRequest_eq_respond, blockResponse_of_invalidWord hinv]
  rfl

/-! ## Ill-formed requests -/

/-- The response to a `DECEV` request of either form (rules R46, R57). -/
theorem responseOf_decevOf (act : Bool) (t : Telegram) (var : Variant) (ch : Channel) (last : BitVec 3) :
    responseOf (decevOf act t var ch last) =
      checked (lastValid last) (eventResponse (decodeEvent t var ch act last)) := by
  cases act <;> rfl

/-- The response to a `NXTST` request of any form (rules R47, R57). -/
theorem responseOf_nxtstOf (mode : SwitchMode) (t : Telegram) (d1c d2c : RockerCode) (hsa ud csv csb : Bool) :
    responseOf (nxtstOf mode t d1c d2c hsa ud csv csb) =
      checked (stateValid csv csb) (stateResponse ud (nextState t d1c d2c hsa mode (stateOperand csv csb))) := by
  cases mode <;> rfl

/-- The response to an ill-formed request is `INV` (DEDUCED, assumption log 8). -/
theorem responseOf_of_ill_formed {i : Instr} (h : i.wf = false) : responseOf i = invResponse := by
  induction i using Instr.byFormat with
  | decev act t var ch last =>
    rw [wf_decevOf] at h
    rw [responseOf_decevOf, h]
    rfl
  | nxtst mode t d1c d2c hsa ud csv csb =>
    rw [wf_nxtstOf] at h
    rw [responseOf_nxtstOf, h]
    rfl
  | encmd cmd var ch => simp at h
  | teach t var => simp at h

/-- Settles O6: the word is refused by its format's check, and the response to the term is `INV` by the same check. -/
theorem illFormedRequestsAnswerInv : Obligations.IllFormedRequestsAnswerInv := by
  unfold Obligations.IllFormedRequestsAnswerInv
  intro i s h
  refine ⟨decode_encode_of_ill_formed h, ?_⟩
  rw [exec_eq_respond, responseOf_of_ill_formed h]
  rfl

/-! ## The caller's table lookup and strings -/

/-- Settles O20: the step is the lookup, which needs no channel. -/
theorem dirsPassesOnTheTableRow : Obligations.DirsPassesOnTheTableRow := by
  unfold Obligations.DirsPassesOnTheTableRow
  intro s var ch rest h
  exact (step_cons h).trans (handle_of_allows (s := { s with inbox := rest }) trivial)

/-- Settles O53: each string is evaluated. -/
theorem actionStringsJoinTwoTokens : Obligations.ActionStringsJoinTwoTokens := by
  unfold Obligations.ActionStringsJoinTwoTokens
  decide

/-- Settles O54: the tags are read back one by one, and reading a tag tests for these four only. -/
theorem commandTagsAreOneToOne : Obligations.CommandTagsAreOneToOne := by
  unfold Obligations.CommandTagsAreOneToOne
  constructor
  · intro c
    cases c <;> decide
  · intro tag c h
    unfold commandOfTag at h
    split_ifs at h with h1 h2 h3 h4
    all_goals
      cases h
      assumption

end Sys2Proof.Machine

/-!
PROOFS of the bit codec: each sub-field of the status byte as bits of the byte, the byte joined from its sub-fields,
and the status byte of a press as such a join (40_bit_codec.md).
-/

namespace Sys2Proof.Machine

/-! ## The sub-fields as bits of the byte -/

/-- Rule R75: the mask 1 keeps bit 0 of the shifted byte, which is bit `n` of the byte. -/
theorem hasBit_eq_getLsbD (b : Byte) (n : BitVec 3) : hasBit b n = b.getLsbD n.toNat := by
  have hmask : (b >>> n.toNat) &&& 1#8 = (BitVec.ofBool (b.getLsbD n.toNat)).setWidth 8 := by
    rw [BitVec.and_one_eq_setWidth_ofBool_getLsbD, BitVec.getLsbD_ushiftRight, Nat.add_zero]
  rw [hasBit, hmask]
  cases b.getLsbD n.toNat <;> rfl

/-- Rule R70. -/
theorem primaryCode_eq_extractLsb' (b : Byte) : primaryCode b = b.extractLsb' 5 3 :=
  BitVec.setWidth_ushiftRight_eq_extractLsb

/-- Rule R71: the mask `0xF` keeps the three bits above bit 0. -/
theorem secondaryCode_eq_extractLsb' (b : Byte) : secondaryCode b = b.extractLsb' 1 3 := by
  have hmask : (0xF#8).extractLsb' 1 3 = BitVec.allOnes 3 := by decide
  rw [secondaryCode, BitVec.setWidth_ushiftRight_eq_extractLsb, BitVec.extractLsb'_and, hmask, BitVec.and_allOnes]

/-- Rule R72. -/
theorem primaryPressed_eq_getLsbD (b : Byte) : primaryPressed b = b.getLsbD 4 := hasBit_eq_getLsbD b 4#3

/-- Rule R73. -/
theorem secondaryPressed_eq_getLsbD (b : Byte) : secondaryPressed b = b.getLsbD 0 := hasBit_eq_getLsbD b 0#3

/-- Rule R74. -/
theorem reservedBit_eq_getLsbD (b : Byte) : reservedBit b = b.getLsbD 7 := hasBit_eq_getLsbD b 7#3

/-- The reserved bit is the most significant bit of the primary code. -/
theorem reservedBit_eq_msb_primaryCode (b : Byte) : reservedBit b = (primaryCode b).msb := by
  rw [reservedBit_eq_getLsbD, primaryCode_eq_extractLsb', BitVec.msb_eq_getLsbD_last, BitVec.getLsbD_extractLsb']
  rfl

/-- The reserved bit is set when the primary code is no rocker code (rule R74). -/
theorem reservedBit_iff (b : Byte) : reservedBit b = true ↔ 4 ≤ (primaryCode b).toNat := by
  rw [reservedBit_eq_msb_primaryCode, BitVec.msb_eq_decide, decide_eq_true_iff]

/-- Settles O13, field by field. -/
theorem statusByteFieldsAreItsBits : Obligations.StatusByteFieldsAreItsBits := by
  unfold Obligations.StatusByteFieldsAreItsBits
  intro b
  exact ⟨primaryCode_eq_extractLsb' b, secondaryCode_eq_extractLsb' b, primaryPressed_eq_getLsbD b,
    secondaryPressed_eq_getLsbD b, reservedBit_eq_getLsbD b, reservedBit_iff b⟩

/-- Settles O15. -/
theorem hasBitReadsOneBit : Obligations.HasBitReadsOneBit := by
  unfold Obligations.HasBitReadsOneBit
  exact hasBit_eq_getLsbD

/-! ## The byte joined from its sub-fields -/

/-- The status byte with the given `R1`, `P1`, `R2` and `P2` (rule R79). -/
def joinFields (r1 : BitVec 3) (p1 : Bool) (r2 : BitVec 3) (p2 : Bool) : Byte :=
  (r1.setWidth 8 <<< 5) ||| ((BitVec.ofBool p1).setWidth 8 <<< 4) ||| (r2.setWidth 8 <<< 1) |||
    (BitVec.ofBool p2).setWidth 8

section JoinFields

variable (r1 : BitVec 3) (p1 : Bool) (r2 : BitVec 3) (p2 : Bool)

/-- The bits of the join: no two of the shifted fields overlap. -/
theorem getLsbD_joinFields {k : Nat} (hk : k < 8) : (joinFields r1 p1 r2 p2).getLsbD k =
    if k = 0 then p2 else if k < 4 then r2.getLsbD (k - 1) else if k = 4 then p1 else r1.getLsbD (k - 5) := by
  simp only [joinFields, BitVec.getLsbD_or, BitVec.getLsbD_shiftLeft, BitVec.getLsbD_setWidth]
  interval_cases k <;> simp

@[simp] theorem primaryCode_joinFields : primaryCode (joinFields r1 p1 r2 p2) = r1 := by
  apply BitVec.eq_of_getLsbD_eq
  intro k hk
  have hlow : ¬ 5 + k < 4 := by omega
  have hflag : 5 + k ≠ 4 := by omega
  rw [primaryCode_eq_extractLsb', BitVec.getLsbD_extractLsb', getLsbD_joinFields _ _ _ _ (by omega)]
  simp [hk, hlow, hflag]

@[simp] theorem secondaryCode_joinFields : secondaryCode (joinFields r1 p1 r2 p2) = r2 := by
  apply BitVec.eq_of_getLsbD_eq
  intro k hk
  have hlow : 1 + k < 4 := by omega
  rw [secondaryCode_eq_extractLsb', BitVec.getLsbD_extractLsb', getLsbD_joinFields _ _ _ _ (by omega)]
  simp [hk, hlow]

@[simp] theorem primaryPressed_joinFields : primaryPressed (joinFields r1 p1 r2 p2) = p1 := by
  rw [primaryPressed_eq_getLsbD, getLsbD_joinFields _ _ _ _ (by omega)]
  rfl

@[simp] theorem secondaryPressed_joinFields : secondaryPressed (joinFields r1 p1 r2 p2) = p2 := by
  rw [secondaryPressed_eq_getLsbD, getLsbD_joinFields _ _ _ _ (by omega)]
  rfl

@[simp] theorem reservedBit_joinFields : reservedBit (joinFields r1 p1 r2 p2) = r1.msb := by
  rw [reservedBit_eq_msb_primaryCode, primaryCode_joinFields]

end JoinFields

/-- A status byte is the join of its own sub-fields (rule R79). -/
theorem joinFields_fields (b : Byte) :
    joinFields (primaryCode b) (primaryPressed b) (secondaryCode b) (secondaryPressed b) = b := by
  apply BitVec.eq_of_getLsbD_eq
  intro k hk
  rw [getLsbD_joinFields _ _ _ _ hk, primaryCode_eq_extractLsb', secondaryCode_eq_extractLsb',
    primaryPressed_eq_getLsbD, secondaryPressed_eq_getLsbD, BitVec.getLsbD_extractLsb', BitVec.getLsbD_extractLsb']
  split_ifs with hp2 hr2 hp1
  · rw [hp2]
  · have hplace : 1 + (k - 1) = k := by omega
    have hin : k - 1 < 3 := by omega
    simp [hplace, hin]
  · rw [hp1]
  · have hplace : 5 + (k - 5) = k := by omega
    have hin : k - 5 < 3 := by omega
    simp [hplace, hin]

/-- Settles O14: a byte is the join of its fields, and the fields of a join are those it was made of. -/
theorem fieldsPartitionTheStatusByte : Obligations.FieldsPartitionTheStatusByte := by
  unfold Obligations.FieldsPartitionTheStatusByte
  exact ⟨fun b => (joinFields_fields b).symm, fun r1 r2 p1 p2 => ⟨joinFields r1 p1 r2 p2, by simp⟩⟩

/-! ## The status byte of a press -/

/-- A press byte has the code and the flag in the primary slot and nothing in the secondary one (rule R78). -/
theorem compose_eq_joinFields (c : RockerCode) : compose c = joinFields (c.code.setWidth 3) true 0#3 false := by
  cases c <;> decide

/-- A rocker code of two bits leaves the top bit of a 3-bit field 0 (rule R54). -/
@[simp] theorem msb_setWidth_code (c : RockerCode) : (c.code.setWidth 3).msb = false :=
  (BitVec.msb_setWidth'' c.code).trans (BitVec.getLsbD_of_ge _ 2 (by decide))

/-- Settles O16: the four bytes are evaluated, and the fields are those the press byte is joined from. -/
theorem composeGivesTheFourPressBytes : Obligations.ComposeGivesTheFourPressBytes := by
  unfold Obligations.ComposeGivesTheFourPressBytes
  refine ⟨by decide, by decide, by decide, by decide, fun c => ⟨rfl, ?_⟩⟩
  rw [compose_eq_joinFields]
  simp

end Sys2Proof.Machine

/-!
PROOFS of the direction table: its closed form, the one channel a rocker code belongs to, and the table read the other
way (41_direction_table.md).
-/

namespace Sys2Proof.Machine

/-! ## The closed form of the table -/

/-- Rule R82, the first half: the four rows. -/
theorem code_dir1Code (var : Variant) (ch : Channel) : (dir1Code var ch).code = ch.bit ++ ~~~var.bit := by
  cases var <;> cases ch <;> decide

/-- Rule R82, the second half: the four rows. -/
theorem code_dir2Code (var : Variant) (ch : Channel) : (dir2Code var ch).code = ch.bit ++ var.bit := by
  cases var <;> cases ch <;> decide

/-- A rocker code is named by its number (rule R54). -/
theorem code_injective : Function.Injective RockerCode.code :=
  Function.LeftInverse.injective RockerCode.ofCode_code

/-- Rule R83 (a): the two codes of a row differ in bit 0, which is the variant bit in one and its complement in the
other. -/
theorem dir1Code_ne_dir2Code (var : Variant) (ch : Channel) : dir1Code var ch ≠ dir2Code var ch := by
  intro h
  have hcode : ch.bit ++ ~~~var.bit = ch.bit ++ var.bit := by rw [← code_dir1Code, ← code_dir2Code, h]
  have hlow : ~~~var.bit = var.bit := (BitVec.append_right_inj _).mp hcode
  exact absurd hlow (by cases var <;> decide)

/-- Rule R83 (b): the bit of the inverted variant is the complement of the bit of the standard one. -/
theorem directionsFor_inverted (ch : Channel) :
    directionsFor .inverted ch = (dir2Code .standard ch, dir1Code .standard ch) := by
  have hbit : ~~~Variant.inverted.bit = Variant.standard.bit := by decide
  have hbit' : Variant.inverted.bit = ~~~Variant.standard.bit := by decide
  have h1 : dir1Code .inverted ch = dir2Code .standard ch :=
    code_injective (by rw [code_dir1Code, code_dir2Code, hbit])
  have h2 : dir2Code .inverted ch = dir1Code .standard ch :=
    code_injective (by rw [code_dir2Code, code_dir1Code, hbit'])
  exact Prod.ext h1 h2

/-! ## The channel of a code -/

/-- The channel a rocker code belongs to: the high bit of its number (rule R83 (c)). -/
def codeChannel (c : RockerCode) : Channel := Channel.ofBit (c.code.extractLsb' 1 1)

/-- A number of two bits is its channel bit before its low bit, and the low bit is a given bit or its complement. -/
theorem eq_append_or_append_not (v : BitVec 2) (b : BitVec 1) :
    v = v.extractLsb' 1 1 ++ ~~~b ∨ v = v.extractLsb' 1 1 ++ b := by
  revert v b
  decide

theorem codeChannel_of_code_eq {c : RockerCode} {ch : Channel} {low : BitVec 1} (h : c.code = ch.bit ++ low) :
    codeChannel c = ch := by
  rw [codeChannel, h, BitVec.extractLsb'_append_eq_left, Channel.ofBit_bit]

/-- Rule R83 (c), (d): under either variant a code stands in the row of its own channel and in no other. -/
theorem dir1Code_or_dir2Code_eq_iff (var : Variant) (ch : Channel) (c : RockerCode) :
    dir1Code var ch = c ∨ dir2Code var ch = c ↔ codeChannel c = ch := by
  constructor
  · rintro (rfl | rfl)
    · exact codeChannel_of_code_eq (code_dir1Code var ch)
    · exact codeChannel_of_code_eq (code_dir2Code var ch)
  · rintro rfl
    have hbit : (codeChannel c).bit = c.code.extractLsb' 1 1 := Channel.bit_ofBit _
    refine (eq_append_or_append_not c.code var.bit).imp (fun h1 => ?_) (fun h2 => ?_)
    · exact code_injective (by rw [code_dir1Code, hbit, ← h1])
    · exact code_injective (by rw [code_dir2Code, hbit, ← h2])

/-- Settles O18: the closed form, the swap of the variants, and the one channel of a code. -/
theorem directionTableHasItsClosedForm : Obligations.DirectionTableHasItsClosedForm := by
  unfold Obligations.DirectionTableHasItsClosedForm
  refine ⟨fun var ch => ⟨code_dir1Code var ch, code_dir2Code var ch, dir1Code_ne_dir2Code var ch⟩,
    directionsFor_inverted, fun var c => ⟨codeChannel c, ?_, fun ch' hrow => ?_⟩⟩
  · exact (dir1Code_or_dir2Code_eq_iff var (codeChannel c) c).mpr rfl
  · exact ((dir1Code_or_dir2Code_eq_iff var ch' c).mp hrow).symm

/-! ## The table read the other way -/

/-- Rule R76: the test of a 3-bit field against a code is equality with the zero-extended code. -/
theorem codeIs_iff (field : BitVec 3) (c : RockerCode) : codeIs field c = true ↔ field = c.code.setWidth 3 :=
  beq_iff_eq

/-- Settles O19: each of the two tests is equality with a zero-extended code of the row. -/
theorem directionOfReadsTheTableBackwards : Obligations.DirectionOfReadsTheTableBackwards := by
  unfold Obligations.DirectionOfReadsTheTableBackwards
  intro var ch code
  simp only [directionOf, codeIs_iff]

end Sys2Proof.Machine

/-!
PROOFS of the event decoder: the response word of an event, the tests on the status byte as comparisons of its shifted
bits, the two forms of `DECEV` by the flags of the telegram, and the directions of an action event
(42_event_decoder.md).
-/

namespace Sys2Proof.Machine

/-! ## The response to a `DECEV` request -/

/-- A valid `DECEV` request of either form answers its event, and nothing else changes (rules R46, R91, R92). -/
theorem exec_decevOf (act : Bool) (t : Telegram) (var : Variant) (ch : Channel) {last : BitVec 3} (s : State)
    (hlast : last ≠ 7#3) :
    exec (decevOf act t var ch last) s =
      .next { s with rsp := eventResponse (decodeEvent t var ch act last) } := by
  rw [exec_eq_respond, responseOf_decevOf, (lastValid_iff last).mpr hlast]
  rfl

theorem exec_decevDir (t : Telegram) (var : Variant) (ch : Channel) {last : BitVec 3} (s : State)
    (hlast : last ≠ 7#3) :
    exec (.decevDir t var ch last) s = .next { s with rsp := eventResponse (decevDir t var ch last) } :=
  exec_decevOf false t var ch s hlast

theorem exec_decevAct (t : Telegram) (var : Variant) (ch : Channel) {last : BitVec 3} (s : State)
    (hlast : last ≠ 7#3) :
    exec (.decevAct t var ch last) s = .next { s with rsp := eventResponse (decevAct t) } :=
  exec_decevOf true t var ch s hlast

@[simp] theorem eventResponse_noEvent : eventResponse .noEvent = 0#32 := by decide
@[simp] theorem eventResponse_dir1Pressed : eventResponse .dir1Pressed = 1#32 := by decide
@[simp] theorem eventResponse_dir1Released : eventResponse .dir1Released = 2#32 := by decide
@[simp] theorem eventResponse_dir2Pressed : eventResponse .dir2Pressed = 3#32 := by decide
@[simp] theorem eventResponse_dir2Released : eventResponse .dir2Released = 4#32 := by decide
@[simp] theorem eventResponse_released : eventResponse .released = 5#32 := by decide

/-- The fields of an Action event in rising order of their places (rule R46). -/
theorem eventResponse_action (da db : Direction) :
    eventResponse (.action da db) = 6#32 ||| place da.code 3 ||| place db.code 5 := by
  have hcode : place (Event.action da db).code 0 = 6#32 := rfl
  rw [eventResponse, hcode, BitVec.or_comm, BitVec.or_comm (place (directionB _).code 5), ← BitVec.or_assoc]
  rfl

/-! ## The code tests on the shifted byte -/

/-- A byte below 8 has the zero-extended code in its low three bits iff it is that code (rule R76). -/
theorem codeIs_setWidth_iff {x : Byte} (hx : x.toNat < 8) (c : RockerCode) :
    codeIs (x.setWidth 3) c = true ↔ x = c.code.setWidth 8 := by
  have hc : c.code.toNat < 4 := c.code.isLt
  rw [codeIs_iff, ← BitVec.toNat_inj, ← BitVec.toNat_inj]
  simp only [BitVec.toNat_setWidth]
  omega

/-- The primary code field is a code iff the byte shifted by five is (rules R70, R76). -/
theorem codeIs_primaryCode_iff (b : Byte) (c : RockerCode) :
    codeIs (primaryCode b) c = true ↔ b >>> 5 = c.code.setWidth 8 := by
  refine codeIs_setWidth_iff ?_ c
  rw [BitVec.toNat_ushiftRight, Nat.shiftRight_eq_div_pow]
  omega

/-- The secondary code field is a code iff the low half shifted by one is (rules R71, R76). -/
theorem codeIs_secondaryCode_iff (b : Byte) (c : RockerCode) :
    codeIs (secondaryCode b) c = true ↔ (b &&& 0xF#8) >>> 1 = c.code.setWidth 8 := by
  refine codeIs_setWidth_iff ?_ c
  rw [BitVec.toNat_ushiftRight, BitVec.toNat_and, Nat.shiftRight_eq_div_pow]
  exact Nat.div_lt_of_lt_mul (Nat.lt_succ_of_le Nat.and_le_right)

/-! ## The directional form by the flags of the telegram -/

section Branches

variable (sb : Byte) (nu : Bool) (var : Variant) (ch : Channel) (last : BitVec 3)

/-- Rules R90 and R95. -/
theorem decevDir_press :
    decevDir ⟨sb, true, true⟩ var ch last = if sb.getLsbD 7 = true then .noEvent else pressEvent sb var ch := by
  rw [← reservedBit_eq_getLsbD]
  rfl

/-- Rules R90 and R98. -/
theorem decevDir_release :
    decevDir ⟨sb, true, false⟩ var ch last = if sb.getLsbD 7 = true then .noEvent else releaseEvent last := by
  rw [← reservedBit_eq_getLsbD]
  rfl

/-- Rule R99. -/
theorem decevDir_not_button : decevDir ⟨sb, false, nu⟩ var ch last = .noEvent :=
  ite_self Event.noEvent

/-- Rules R90, R93 and R94. -/
theorem decevAct_press :
    decevAct ⟨sb, true, true⟩ = if sb.getLsbD 7 = true then .noEvent else .action (dirA sb) (dirB sb) := by
  rw [← reservedBit_eq_getLsbD]
  rfl

/-- Rules R90 and R97. -/
theorem decevAct_release :
    decevAct ⟨sb, true, false⟩ = if sb.getLsbD 7 = true then .noEvent else .released := by
  rw [← reservedBit_eq_getLsbD]
  rfl

/-- Rule R99. -/
theorem decevAct_not_button : decevAct ⟨sb, false, nu⟩ = .noEvent :=
  ite_self Event.noEvent

end Branches

/-- Rule R90: the reserved bit is tested before anything else, in both forms. -/
theorem decodeEvent_of_reserved {t : Telegram} (h : t.sb.getLsbD 7 = true) (var : Variant) (ch : Channel) (act : Bool)
    (last : BitVec 3) : decodeEvent t var ch act last = .noEvent := by
  have hrsv : reservedBit t.sb = true := (reservedBit_eq_getLsbD t.sb).trans h
  cases act
  · exact if_pos hrsv
  · exact if_pos hrsv

/-- Rule R99: other telegram types give no event, in both forms. -/
theorem decodeEvent_of_not_button {t : Telegram} (h : t.t21 = false) (var : Variant) (ch : Channel) (act : Bool)
    (last : BitVec 3) : decodeEvent t var ch act last = .noEvent := by
  obtain ⟨sb, t21, nu⟩ := t
  cases h
  cases act
  · exact decevDir_not_button sb nu var ch last
  · exact decevAct_not_button sb nu

/-- Settles O21: the event is NoEvent for either reason, whichever form is asked for. -/
theorem rejectedTelegramsGiveNoEvent : Obligations.RejectedTelegramsGiveNoEvent := by
  unfold Obligations.RejectedTelegramsGiveNoEvent
  intro s t var ch last hlast hreject
  have hevent : ∀ act, decodeEvent t var ch act last = .noEvent := fun act =>
    hreject.elim (fun h => decodeEvent_of_reserved h var ch act last)
      (fun h => decodeEvent_of_not_button h var ch act last)
  have hexec : ∀ act, exec (decevOf act t var ch last) s = .next { s with rsp := 0x00000000#32 } := fun act => by
    rw [exec_decevOf act t var ch s hlast, hevent act, eventResponse_noEvent]
  exact ⟨hexec false, hexec true⟩

/-! ## `DECEV.DIR` on every operand -/

/-- The response to a press telegram whose bit 7 is clear (rules R95, R96). -/
theorem eventResponse_pressEvent (sb : Byte) (var : Variant) (ch : Channel) :
    eventResponse (pressEvent sb var ch) =
      if sb.getLsbD 4 = true ∧ sb.getLsbD 0 = true then 0#32
      else if sb >>> 5 = (dir1Code var ch).code.setWidth 8 then (if sb.getLsbD 4 = true then 1#32 else 2#32)
      else if sb >>> 5 = (dir2Code var ch).code.setWidth 8 then (if sb.getLsbD 4 = true then 3#32 else 4#32)
      else 0#32 := by
  simp only [pressEvent, dualPress, dir1Event, dir2Event, apply_ite eventResponse, codeIs_primaryCode_iff,
    Bool.and_eq_true, primaryPressed_eq_getLsbD, secondaryPressed_eq_getLsbD, eventResponse_noEvent,
    eventResponse_dir1Pressed, eventResponse_dir1Released, eventResponse_dir2Pressed, eventResponse_dir2Released]

/-- The response to a release telegram whose bit 7 is clear (rule R98). -/
theorem eventResponse_releaseEvent (last : BitVec 3) :
    eventResponse (releaseEvent last) = if last = 1#3 then 2#32 else if last = 3#3 then 4#32 else 0#32 := by
  rw [releaseEvent, apply_ite eventResponse, apply_ite eventResponse, eventResponse_noEvent,
    eventResponse_dir1Released, eventResponse_dir2Released]
  rfl

/-- Settles O22: the class of the telegram selects the step, and the response of each step is known. -/
theorem decevDirFollowsItsSteps : Obligations.DecevDirFollowsItsSteps := by
  unfold Obligations.DecevDirFollowsItsSteps
  intro s sb t21 nu var ch last hlast
  rw [exec_decevDir _ _ _ _ hlast]
  cases t21 with
  | false => simp [decevDir_not_button]
  | true =>
    cases nu with
    | false => simp [decevDir_release, apply_ite eventResponse, eventResponse_releaseEvent]
    | true => simp [decevDir_press, apply_ite eventResponse, eventResponse_pressEvent]

/-! ## Orientation duality -/

/-- The event with Dir1 and Dir2 exchanged (rule R102); events that name no direction stay. -/
def exchangeDirections : Event → Event
  | .dir1Pressed => .dir2Pressed
  | .dir1Released => .dir2Released
  | .dir2Pressed => .dir1Pressed
  | .dir2Released => .dir1Released
  | .noEvent => .noEvent
  | .released => .released
  | .action da db => .action da db

@[simp] theorem exchangeDirections_noEvent : exchangeDirections .noEvent = .noEvent := rfl

@[simp] theorem exchangeDirections_dir1Event (b : Byte) : exchangeDirections (dir1Event b) = dir2Event b := by
  cases h : primaryPressed b <;> simp [dir1Event, dir2Event, h, exchangeDirections]

@[simp] theorem exchangeDirections_dir2Event (b : Byte) : exchangeDirections (dir2Event b) = dir1Event b := by
  cases h : primaryPressed b <;> simp [dir1Event, dir2Event, h, exchangeDirections]

/-- A code field is at most one of the two codes of a row (rule R83 (a)). -/
theorem codeIs_dir2Code_of_dir1Code {field : BitVec 3} {var : Variant} {ch : Channel}
    (h1 : codeIs field (dir1Code var ch) = true) : codeIs field (dir2Code var ch) = false := by
  refine Bool.eq_false_iff.mpr fun h2 => dir1Code_ne_dir2Code var ch (code_injective ?_)
  have heq : (dir1Code var ch).code.setWidth 3 = (dir2Code var ch).code.setWidth 3 :=
    ((codeIs_iff _ _).mp h1).symm.trans ((codeIs_iff _ _).mp h2)
  simpa using congrArg (BitVec.setWidth 2) heq

/-- The two codes of the row change places, and a byte's code is at most one of them (rule R83 (a), (b)). -/
theorem pressEvent_inverted (sb : Byte) (ch : Channel) :
    pressEvent sb .inverted ch = exchangeDirections (pressEvent sb .standard ch) := by
  have hd1 : dir1Code .inverted ch = dir2Code .standard ch := congrArg Prod.fst (directionsFor_inverted ch)
  have hd2 : dir2Code .inverted ch = dir1Code .standard ch := congrArg Prod.snd (directionsFor_inverted ch)
  unfold pressEvent
  rw [hd1, hd2]
  by_cases hdual : dualPress sb = true
  · simp [hdual]
  · by_cases h1 : codeIs (primaryCode sb) (dir1Code .standard ch) = true
    · simp [hdual, h1, codeIs_dir2Code_of_dir1Code h1]
    · by_cases h2 : codeIs (primaryCode sb) (dir2Code .standard ch) = true
      · simp [hdual, h1, h2]
      · simp [hdual, h1, h2]

/-- Rule R102 on events. -/
theorem decevDir_press_inverted (sb : Byte) (ch : Channel) (last : BitVec 3) :
    decevDir ⟨sb, true, true⟩ .inverted ch last = exchangeDirections (decevDir ⟨sb, true, true⟩ .standard ch last) := by
  rw [decevDir_press, decevDir_press, apply_ite exchangeDirections, pressEvent_inverted, exchangeDirections_noEvent]

/-- A press telegram gives one of the event codes 0 to 4 (rule R91). -/
theorem decevDir_press_directional (sb : Byte) (var : Variant) (ch : Channel) (last : BitVec 3) :
    decevDir ⟨sb, true, true⟩ var ch last = .noEvent ∨ directional (decevDir ⟨sb, true, true⟩ var ch last) = true := by
  rw [decevDir_press]
  unfold pressEvent dir1Event dir2Event
  split_ifs <;> simp [directional]

section ExchangedResponse

variable {ev : Event} (h : ev = .noEvent ∨ directional ev = true)
include h

theorem eventResponse_le_four : (eventResponse ev).toNat ≤ 4 := by
  cases ev with
  | released => simp [directional] at h
  | action da db => simp [directional] at h
  | _ => decide

/-- The exchange on response words: 1 with 3 and 2 with 4 (rule R102). -/
theorem eventResponse_exchangeDirections :
    eventResponse (exchangeDirections ev) =
      if eventResponse ev = 1#32 then 3#32 else if eventResponse ev = 3#32 then 1#32
      else if eventResponse ev = 2#32 then 4#32 else if eventResponse ev = 4#32 then 2#32 else eventResponse ev := by
  cases ev with
  | released => simp [directional] at h
  | action da db => simp [directional] at h
  | _ => decide

end ExchangedResponse

/-- Settles O23: the response under Standard, and the exchange of the events on their response words. -/
theorem invertedVariantExchangesDirections : Obligations.InvertedVariantExchangesDirections := by
  unfold Obligations.InvertedVariantExchangesDirections
  intro s sb ch last hlast
  have hev := decevDir_press_directional sb .standard ch last
  refine ⟨_, eventResponse_le_four hev, exec_decevDir _ _ _ _ hlast, ?_⟩
  rw [exec_decevDir _ _ _ _ hlast, decevDir_press_inverted, eventResponse_exchangeDirections hev]

/-! ## The fields that each branch reads -/

/-- The bits 7..4 and 0 of a status byte: the fields of a press telegram that `DECEV.DIR` reads (rule R101). -/
def directionalFields (b : Byte) : Byte := b &&& 0xF1#8

/-- A bit that `directionalFields` keeps. -/
theorem hasBit_directionalFields {n : BitVec 3} (hn : (0xF1#8).getLsbD n.toNat = true) (b : Byte) :
    hasBit (directionalFields b) n = hasBit b n := by
  rw [hasBit_eq_getLsbD, hasBit_eq_getLsbD, directionalFields, BitVec.getLsbD_and, hn, Bool.and_true]

theorem primaryCode_directionalFields (b : Byte) : primaryCode (directionalFields b) = primaryCode b := by
  have hmask : (0xF1#8).extractLsb' 5 3 = BitVec.allOnes 3 := by decide
  rw [primaryCode_eq_extractLsb', primaryCode_eq_extractLsb', directionalFields, BitVec.extractLsb'_and, hmask,
    BitVec.and_allOnes]

/-- Rule R101: of a press telegram's byte only the primary slot and the secondary press flag matter. -/
theorem pressEvent_directionalFields (b : Byte) (var : Variant) (ch : Channel) :
    pressEvent (directionalFields b) var ch = pressEvent b var ch := by
  have hp1 : primaryPressed (directionalFields b) = primaryPressed b := hasBit_directionalFields (by decide) b
  have hp2 : secondaryPressed (directionalFields b) = secondaryPressed b := hasBit_directionalFields (by decide) b
  unfold pressEvent dualPress dir1Event dir2Event
  rw [hp1, hp2, primaryCode_directionalFields]

/-- Rule R101, the row of a directional press: the other bits of the byte, and `LAST`, are not read. -/
theorem decevDir_press_directionalFields (sb : Byte) (var : Variant) (ch : Channel) (last last' : BitVec 3) :
    decevDir ⟨directionalFields sb, true, true⟩ var ch last = decevDir ⟨sb, true, true⟩ var ch last' := by
  have hrsv : reservedBit (directionalFields sb) = reservedBit sb := hasBit_directionalFields (by decide) sb
  rw [decevDir_press, decevDir_press, ← reservedBit_eq_getLsbD, ← reservedBit_eq_getLsbD, hrsv,
    pressEvent_directionalFields]

/-- Settles O24: a press by the byte reduced to the fields read, a release by its closed form. -/
theorem decevDirReadsOnlyItsFields : Obligations.DecevDirReadsOnlyItsFields := by
  unfold Obligations.DecevDirReadsOnlyItsFields
  constructor
  · intro s sb sb' var ch last last' hlast hlast' hfields
    have hsame : directionalFields sb = directionalFields sb' := hfields
    rw [exec_decevDir _ _ _ _ hlast, exec_decevDir _ _ _ _ hlast',
      ← decevDir_press_directionalFields sb var ch last, hsame, decevDir_press_directionalFields sb' var ch last last']
  · intro s sb sb' var var' ch ch' last hlast h7
    rw [exec_decevDir _ _ _ _ hlast, exec_decevDir _ _ _ _ hlast, decevDir_release, decevDir_release, h7]

/-! ## `DECEV.ACT` on every operand -/

/-- Rule R93, with the code tests on the shifted byte. -/
theorem dirA_eq (b : Byte) :
    dirA b = if b >>> 5 = 1#8 ∧ b.getLsbD 4 = true then .dir1
      else if b >>> 5 = 0#8 ∧ b.getLsbD 4 = true then .dir2 else .none := by
  simp only [dirA, Bool.and_eq_true, codeIs_primaryCode_iff, primaryPressed_eq_getLsbD]
  rfl

/-- Rule R94, with the code tests on the shifted byte and the shifted low half. -/
theorem dirB_eq (b : Byte) :
    dirB b =
      if (b >>> 5 = 3#8 ∧ b.getLsbD 4 = true) ∨ ((b &&& 0xF#8) >>> 1 = 3#8 ∧ b.getLsbD 0 = true) then .dir1
      else if (b >>> 5 = 2#8 ∧ b.getLsbD 4 = true) ∨ ((b &&& 0xF#8) >>> 1 = 2#8 ∧ b.getLsbD 0 = true) then .dir2
      else .none := by
  simp only [dirB, Bool.or_eq_true, Bool.and_eq_true, codeIs_primaryCode_iff, codeIs_secondaryCode_iff,
    primaryPressed_eq_getLsbD, secondaryPressed_eq_getLsbD]
  rfl

/-- A direction chosen by two tests, as a field of the response (rule R46). -/
theorem place_code_ite (p q : Prop) [Decidable p] [Decidable q] (lo : Nat) :
    place (if p then Direction.dir1 else if q then .dir2 else .none).code lo =
      if p then 1#32 <<< lo else if q then 2#32 <<< lo else 0#32 := by
  split_ifs with hp hq
  · rfl
  · rfl
  · exact BitVec.zero_shiftLeft lo

/-- Settles O25: the class of the telegram selects the step, and a press reports both directions. -/
theorem decevActReportsBothChannels : Obligations.DecevActReportsBothChannels := by
  unfold Obligations.DecevActReportsBothChannels
  intro s sb t21 nu var ch last hlast
  rw [exec_decevAct _ _ _ _ hlast]
  cases t21 with
  | false => simp [decevAct_not_button]
  | true =>
    cases nu with
    | false => simp [decevAct_release, apply_ite eventResponse]
    | true =>
      rw [decevAct_press, apply_ite eventResponse, eventResponse_action, dirA_eq, dirB_eq, place_code_ite,
        place_code_ite]
      simp

/-! ## The directions by the halves of the byte -/

/-- A slot is its code above its press flag: one number for a pressed slot of a given code (rules R70 to R73). -/
theorem slot_pressed_iff {x n c : Byte} (hn : n.toNat = 2 * c.toNat + 1) :
    x >>> 1 = c ∧ x.getLsbD 0 = true ↔ x = n := by
  rw [← BitVec.toNat_inj, ← BitVec.toNat_inj, BitVec.toNat_ushiftRight, Nat.shiftRight_eq_div_pow, BitVec.getLsbD,
    Nat.testBit_zero, decide_eq_true_iff]
  omega

/-- The primary slot is the high half (rules R70, R72). -/
theorem primary_pressed_iff {b n c : Byte} (hn : n.toNat = 2 * c.toNat + 1) :
    b >>> 5 = c ∧ b.getLsbD 4 = true ↔ b >>> 4 = n := by
  rw [← slot_pressed_iff hn, ← BitVec.shiftRight_add, BitVec.getLsbD_ushiftRight]

/-- The secondary slot is the low half (rules R71, R73). -/
theorem secondary_pressed_iff {b n c : Byte} (hn : n.toNat = 2 * c.toNat + 1) :
    (b &&& 0xF#8) >>> 1 = c ∧ b.getLsbD 0 = true ↔ b &&& 0xF#8 = n := by
  have hflag : (b &&& 0xF#8).getLsbD 0 = b.getLsbD 0 := by rw [BitVec.getLsbD_and]; exact Bool.and_true _
  rw [← slot_pressed_iff hn, hflag]

/-- Channel A has a direction when the primary slot is a press of one of its codes (rule R93). -/
theorem primary_of_dirA_ne_none {b : Byte} (h : dirA b ≠ .none) :
    (b >>> 5 = 1#8 ∨ b >>> 5 = 0#8) ∧ b.getLsbD 4 = true := by
  rw [dirA_eq] at h
  split_ifs at h with h1 h2
  · exact ⟨.inl h1.1, h1.2⟩
  · exact ⟨.inr h2.1, h2.2⟩
  · exact absurd rfl h

/-- Channel B has a direction when one of the slots is a press of one of its codes (rule R94). -/
theorem slot_of_dirB_ne_none {b : Byte} (h : dirB b ≠ .none) :
    (b >>> 5 = 3#8 ∨ b >>> 5 = 2#8) ∨
    (((b &&& 0xF#8) >>> 1 = 2#8 ∨ (b &&& 0xF#8) >>> 1 = 3#8) ∧ b.getLsbD 0 = true) := by
  rw [dirB_eq] at h
  split_ifs at h with h1 h2
  · exact h1.imp (fun hp => .inl hp.1) (fun hs => ⟨.inr hs.1, hs.2⟩)
  · exact h2.imp (fun hp => .inr hp.1) (fun hs => ⟨.inl hs.1, hs.2⟩)
  · exact absurd rfl h

/-- Settles O26: a pressed slot is one number of its half; with channel A in the primary slot, channel B is left the
secondary one. -/
theorem actionDirectionsByNibble : Obligations.ActionDirectionsByNibble := by
  unfold Obligations.ActionDirectionsByNibble
  refine fun b => ⟨?_, ?_, fun ⟨hA, hB⟩ => ?_⟩
  · simp only [dirA_eq, primary_pressed_iff (n := 3#8) (c := 1#8) rfl, primary_pressed_iff (n := 1#8) (c := 0#8) rfl]
  · simp only [dirB_eq, primary_pressed_iff (n := 7#8) (c := 3#8) rfl, primary_pressed_iff (n := 5#8) (c := 2#8) rfl,
      secondary_pressed_iff (n := 7#8) (c := 3#8) rfl, secondary_pressed_iff (n := 5#8) (c := 2#8) rfl]
  · obtain ⟨hcodeA, hp1⟩ := primary_of_dirA_ne_none hA
    have hle : (b >>> 5).toNat ≤ 1 := by
      rcases hcodeA with hc | hc <;> rw [hc] <;> decide
    rcases slot_of_dirB_ne_none hB with hcodeB | ⟨hcodeB, hp2⟩
    · rcases hcodeB with hc | hc <;> rw [hc] at hle <;> exact absurd hle (by decide)
    · exact ⟨hp1, hp2, hle, hcodeB⟩

end Sys2Proof.Machine

/-!
PROOFS of the switch-mode state machine: the response word of a new state, the gate and the slot tests as bits and
shifted halves of the status byte, and the forms of `NXTST` (43_switch_mode_fsm.md).
-/

namespace Sys2Proof.Machine

/-! ## The response to a `NXTST` request -/

/-- A valid `NXTST` request of any form answers its new state, and nothing else changes (rules R47, R110). -/
theorem exec_nxtstOf (mode : SwitchMode) (t : Telegram) (d1c d2c : RockerCode) (hsa ud : Bool) {csv csb : Bool}
    (s : State) (hcs : csv = true ∨ csb = false) :
    exec (nxtstOf mode t d1c d2c hsa ud csv csb) s =
      .next { s with rsp := stateResponse ud (nextState t d1c d2c hsa mode (stateOperand csv csb)) } := by
  have hvalid : stateValid csv csb = true := by simpa [stateValid] using hcs
  rw [exec_eq_respond, responseOf_nxtstOf, hvalid]
  rfl

@[simp] theorem stateResponse_none (ud : Bool) : stateResponse ud none = 0#32 := rfl

/-- The response On, or Up (rule R47). -/
@[simp] theorem stateResponse_some_true (ud : Bool) :
    stateResponse ud (some true) = if ud = true then 7#32 else 3#32 := by
  cases ud <;> decide

/-- The response Off, or Down (rule R47). -/
@[simp] theorem stateResponse_some_false (ud : Bool) :
    stateResponse ud (some false) = if ud = true then 5#32 else 1#32 := by
  cases ud <;> decide

/-- The response to a flip; an undefined state counts as Off (rules R115, R118). -/
theorem stateResponse_toggled (ud csv csb : Bool) :
    stateResponse ud (some (toggled (stateOperand csv csb))) =
      if csv = true ∧ csb = true then (if ud = true then 5#32 else 1#32)
      else (if ud = true then 7#32 else 3#32) := by
  have hflip : toggled (stateOperand csv csb) = !(csv && csb) := by cases csv <;> rfl
  simp only [hflip, ← Bool.and_eq_true]
  cases csv && csb with
  | false => exact stateResponse_some_true ud
  | true => exact stateResponse_some_false ud

/-! ## The gate and the slots on the status byte -/

/-- Rule R111. -/
theorem gateShut_iff (t : Telegram) :
    gateShut t = true ↔ t.sb.getLsbD 7 = true ∨ t.t21 = false ∨ t.nu = false := by
  simp only [gateShut, Bool.or_eq_true, Bool.not_eq_true', reservedBit_eq_getLsbD, or_assoc]

/-- The primary slot of rule R112. -/
theorem primaryMatch_iff (b : Byte) (c : RockerCode) :
    primaryMatch b c = true ↔ b.getLsbD 4 = true ∧ b >>> 5 = c.code.setWidth 8 := by
  rw [primaryMatch, Bool.and_eq_true, primaryPressed_eq_getLsbD, codeIs_primaryCode_iff]

/-- The secondary slot of rule R112. -/
theorem secondaryMatch_iff (b : Byte) (hsa : Bool) (c : RockerCode) :
    secondaryMatch b hsa c = true ↔
      hsa = true ∧ b.getLsbD 0 = true ∧ (b &&& 0xF#8) >>> 1 = c.code.setWidth 8 := by
  rw [secondaryMatch, Bool.and_eq_true, Bool.and_eq_true, secondaryPressed_eq_getLsbD, codeIs_secondaryCode_iff,
    and_assoc]

/-- Either slot of rule R121. -/
theorem pressOf_iff (b : Byte) (hsa : Bool) (c : RockerCode) :
    pressOf b hsa c = true ↔
      (b.getLsbD 4 = true ∧ b >>> 5 = c.code.setWidth 8) ∨
      (hsa = true ∧ b.getLsbD 0 = true ∧ (b &&& 0xF#8) >>> 1 = c.code.setWidth 8) := by
  rw [pressOf, Bool.or_eq_true, primaryMatch_iff, secondaryMatch_iff]

/-! ## Rocker mode -/

/-- Settles O28: each step of rule R114 answers its word, with the tests read off the status byte. -/
theorem rockerModeMapsAPress : Obligations.RockerModeMapsAPress := by
  unfold Obligations.RockerModeMapsAPress
  intro s sb t21 nu d1c d2c hsa ud csv csb hcs
  refine (exec_nxtstOf .rocker _ d1c d2c hsa ud s hcs).trans ?_
  simp only [nextState, nextRocker, apply_ite (stateResponse ud), gateShut_iff, primaryMatch_iff, secondaryMatch_iff,
    stateResponse_none, stateResponse_some_true, stateResponse_some_false]

/-! ## The toggle modes -/

/-- Rule R116 is rule R115 with the two codes exchanged. -/
theorem nextTgl2_eq_nextTgl1 : nextTgl2 = nextTgl1 := rfl

/-- The response of a toggle mode whose code is `c` (rules R115, R116). -/
theorem stateResponse_nextTgl1 (t : Telegram) (c : RockerCode) (hsa ud csv csb : Bool) :
    stateResponse ud (nextTgl1 t c hsa (stateOperand csv csb)) =
      if t.sb.getLsbD 7 = true ∨ t.t21 = false ∨ t.nu = false then 0#32
      else if (t.sb.getLsbD 4 = true ∧ t.sb >>> 5 = c.code.setWidth 8) ∨
          (hsa = true ∧ t.sb.getLsbD 0 = true ∧ (t.sb &&& 0xF#8) >>> 1 = c.code.setWidth 8) then
        (if csv = true ∧ csb = true then (if ud = true then 5#32 else 1#32)
         else (if ud = true then 7#32 else 3#32))
      else 0#32 := by
  simp only [nextTgl1, apply_ite (stateResponse ud), gateShut_iff, pressOf_iff, stateResponse_none,
    stateResponse_toggled]

/-- Settles O29: the response of a toggle mode, at `dir1Code`. -/
theorem toggleOnDir1FlipsTheState : Obligations.ToggleOnDir1FlipsTheState := by
  unfold Obligations.ToggleOnDir1FlipsTheState
  intro s sb t21 nu d1c d2c hsa ud csv csb hcs
  refine (exec_nxtstOf .toggleOnDir1 _ d1c d2c hsa ud s hcs).trans ?_
  rw [nextState, stateResponse_nextTgl1]

/-- Settles O30: the response of a toggle mode, at `dir2Code`. -/
theorem toggleOnDir2FlipsTheState : Obligations.ToggleOnDir2FlipsTheState := by
  unfold Obligations.ToggleOnDir2FlipsTheState
  intro s sb t21 nu d1c d2c hsa ud csv csb hcs
  refine (exec_nxtstOf .toggleOnDir2 _ d1c d2c hsa ud s hcs).trans ?_
  rw [nextState, nextTgl2_eq_nextTgl1, stateResponse_nextTgl1]

/-! ## `KIND` and the shut gate, in every form -/

/-- Without `UD` the response is None, Off or On (rule R47). -/
theorem stateResponse_false_cases (ns : Option Bool) :
    stateResponse false ns = 0#32 ∨ stateResponse false ns = 1#32 ∨ stateResponse false ns = 3#32 := by
  match ns with
  | none => simp
  | some true => simp
  | some false => simp

/-- `UD` sets `KIND`, bit 2, in the response of a new state (rule R119). -/
theorem stateResponse_true (ns : Option Bool) :
    stateResponse true ns =
      if stateResponse false ns = 0#32 then 0#32 else stateResponse false ns ||| 4#32 := by
  match ns with
  | none => simp
  | some true => simp
  | some false => simp

/-- Settles O31: the new state is the same for both values of `UD`, which enters its response word alone. -/
theorem udSelectsTheNameOnly : Obligations.UdSelectsTheNameOnly := by
  unfold Obligations.UdSelectsTheNameOnly
  intro s t d1c d2c hsa csv csb hcs form hform
  obtain ⟨mode, rfl⟩ : ∃ mode, form = fun ud => nxtstOf mode t d1c d2c hsa ud csv csb := by
    rcases hform with h | h | h
    · exact ⟨.rocker, h⟩
    · exact ⟨.toggleOnDir1, h⟩
    · exact ⟨.toggleOnDir2, h⟩
  refine ⟨_, stateResponse_false_cases _, exec_nxtstOf mode t d1c d2c hsa false s hcs, ?_⟩
  rw [exec_nxtstOf mode t d1c d2c hsa true s hcs, stateResponse_true]

/-- Rule R111: the gate is the first test of every form. -/
theorem nextState_of_gateShut {t : Telegram} (h : gateShut t = true) (d1c d2c : RockerCode) (hsa : Bool)
    (mode : SwitchMode) (cs : Option Bool) : nextState t d1c d2c hsa mode cs = none := by
  cases mode with
  | rocker => exact if_pos h
  | toggleOnDir1 => exact if_pos h
  | toggleOnDir2 => exact if_pos h

/-- Settles O27: behind a shut gate there is no new state, whichever form is asked for. -/
theorem shutGateChangesNothing : Obligations.ShutGateChangesNothing := by
  unfold Obligations.ShutGateChangesNothing
  intro s t d1c d2c hsa ud csv csb hcs hreason
  have hshut : gateShut t = true := (gateShut_iff t).mpr hreason
  have hexec : ∀ mode, exec (nxtstOf mode t d1c d2c hsa ud csv csb) s = .next { s with rsp := 0x00000000#32 } :=
    fun mode => by rw [exec_nxtstOf mode t d1c d2c hsa ud s hcs, nextState_of_gateShut hshut, stateResponse_none]
  exact ⟨hexec .rocker, hexec .toggleOnDir1, hexec .toggleOnDir2⟩

end Sys2Proof.Machine

/-!
PROOFS of the command encoder: the response word of a command and the telegram read back from it, the outbound telegrams
under the other operations, the round trip through the decoder, and commands delivered from one channel to another
(44_command_encoder.md).
-/

namespace Sys2Proof

/-! ## What a command names -/

/-- The event a command is named after (rules R51, R63). -/
def Command.event : Command → Event
  | .dir1Pressed => .dir1Pressed
  | .dir1Released => .dir1Released
  | .dir2Pressed => .dir2Pressed
  | .dir2Released => .dir2Released

/-- What `LAST` has to be for a command's telegram to decode to its event: anything for a press, the press of the same
direction for a release (rule R134, conflict C6). -/
def Command.decodesUnder : Command → BitVec 3 → Prop
  | .dir1Pressed, _ => True
  | .dir1Released, last => last = Event.dir1Pressed.code
  | .dir2Pressed, _ => True
  | .dir2Released, last => last = Event.dir2Pressed.code

end Sys2Proof

namespace Sys2Proof.Machine

/-! ## The telegram of each command -/

/-- Rule R132. -/
@[simp] theorem encodeCommand_dir1Pressed (var : Variant) (ch : Channel) :
    encodeCommand .dir1Pressed var ch = pressOutbound (dir1Code var ch) := rfl

/-- Rule R133. -/
@[simp] theorem encodeCommand_dir2Pressed (var : Variant) (ch : Channel) :
    encodeCommand .dir2Pressed var ch = pressOutbound (dir2Code var ch) := rfl

/-- Rule R131. -/
@[simp] theorem encodeCommand_dir1Released (var : Variant) (ch : Channel) :
    encodeCommand .dir1Released var ch = releaseOutbound := rfl

/-- Rule R131. -/
@[simp] theorem encodeCommand_dir2Released (var : Variant) (ch : Channel) :
    encodeCommand .dir2Released var ch = releaseOutbound := rfl

/-! ## The response to an `ENCMD` request -/

/-- An `ENCMD` request of any form answers the command's telegram, and nothing else changes (rules R48, R130). -/
theorem exec_encmdOf (cmd : Command) (var : Variant) (ch : Channel) (s : State) :
    exec (encmdOf cmd var ch) s = .next { s with rsp := placeTelegram (encodeCommand cmd var ch) } := by
  cases cmd <;> rfl

/-- A telegram is read back from the word it was placed in (rules R40, R48). -/
@[simp] theorem telegramOf_placeTelegram (t : Telegram) : telegramOf (placeTelegram t) = t := by
  simp [telegramOf, placeTelegram, placeFlag, flag_eq_bits]

/-- The word of a press telegram (rules R48, R78). -/
theorem placeTelegram_pressOutbound (c : RockerCode) :
    placeTelegram (pressOutbound c) = 0x00000310#32 ||| place c.code 5 := by
  cases c <;> decide

/-- The word of the release telegram (rule R131). -/
theorem placeTelegram_releaseOutbound : placeTelegram releaseOutbound = 0x00000100#32 := by decide

/-- Settles O32: the word of a press carries its code at bit 5, and the code is the table's. -/
theorem pressCommandsEncodeTheirCode : Obligations.PressCommandsEncodeTheirCode := by
  unfold Obligations.PressCommandsEncodeTheirCode
  intro s var ch
  have hdir1 := exec_encmdOf .dir1Pressed var ch s
  have hdir2 := exec_encmdOf .dir2Pressed var ch s
  simp only [encodeCommand_dir1Pressed, encodeCommand_dir2Pressed, placeTelegram_pressOutbound, code_dir1Code,
    code_dir2Code] at hdir1 hdir2
  cases var <;> cases ch <;> exact ⟨hdir1, hdir2⟩

/-- Settles O33: both releases are the one release telegram. -/
theorem releaseCommandsEncodeOneTelegram : Obligations.ReleaseCommandsEncodeOneTelegram := by
  unfold Obligations.ReleaseCommandsEncodeOneTelegram
  intro s var ch
  rw [← placeTelegram_releaseOutbound]
  exact ⟨exec_encmdOf .dir1Released var ch s, exec_encmdOf .dir2Released var ch s⟩

/-! ## The outbound telegrams -/

/-- Every command's telegram is the press of a code or the release telegram. -/
theorem encodeCommand_cases (cmd : Command) (var : Variant) (ch : Channel) :
    (∃ c, encodeCommand cmd var ch = pressOutbound c) ∨ encodeCommand cmd var ch = releaseOutbound := by
  cases cmd with
  | dir1Pressed => exact .inl ⟨dir1Code var ch, rfl⟩
  | dir2Pressed => exact .inl ⟨dir2Code var ch, rfl⟩
  | dir1Released | dir2Released => exact .inr rfl

/-- Settles O34, for a press of any code and for the release telegram. -/
theorem encoderNeverProducesOtherTelegrams : Obligations.EncoderNeverProducesOtherTelegrams := by
  unfold Obligations.EncoderNeverProducesOtherTelegrams
  intro cmd var ch
  rcases encodeCommand_cases cmd var ch with ⟨c, hpress⟩ | hrelease
  · rw [hpress]
    cases c <;> decide
  · rw [hrelease]
    decide

@[simp] theorem pressOutbound_sb (c : RockerCode) : (pressOutbound c).sb = compose c := rfl

@[simp] theorem primaryCode_compose (c : RockerCode) : primaryCode (compose c) = c.code.setWidth 3 := by
  simp [compose_eq_joinFields]

@[simp] theorem primaryPressed_compose (c : RockerCode) : primaryPressed (compose c) = true := by
  simp [compose_eq_joinFields]

@[simp] theorem secondaryPressed_compose (c : RockerCode) : secondaryPressed (compose c) = false := by
  simp [compose_eq_joinFields]

@[simp] theorem reservedBit_compose (c : RockerCode) : reservedBit (compose c) = false := by
  simp [compose_eq_joinFields]

/-- A code, zero-extended to a field, is read as itself (rule R76). -/
@[simp] theorem codeIs_setWidth_self (c : RockerCode) : codeIs (c.code.setWidth 3) c = true :=
  (codeIs_iff _ _).mpr rfl

/-- The code of `dir2` in a field is not read as that of `dir1` (rule R83 (a)). -/
@[simp] theorem codeIs_dir1Code_of_dir2Code (var : Variant) (ch : Channel) :
    codeIs ((dir2Code var ch).code.setWidth 3) (dir1Code var ch) = false := by
  refine Bool.eq_false_iff.mpr fun h1 => ?_
  simpa using codeIs_dir2Code_of_dir1Code h1

/-! ## `TEACH` and `NXTST` on the outbound telegrams -/

/-- A `TEACH` request answers whether the telegram is valid, and nothing else changes (rules R49, R141). -/
theorem exec_teach (t : Telegram) (var : Variant) (s : State) :
    exec (.teach t var) s = .next { s with rsp := if isValidForTeachIn t var = true then 1#32 else 0#32 } := by
  have hword : teachInResponse t var = if isValidForTeachIn t var = true then 1#32 else 0#32 := by
    unfold teachInResponse
    cases isValidForTeachIn t var <;> rfl
  rw [← hword]
  rfl

/-- Under Inverted no telegram is valid (rule R141). -/
@[simp] theorem isValidForTeachIn_inverted (t : Telegram) : isValidForTeachIn t .inverted = false := rfl

@[simp] theorem isValidForTeachIn_pressOutbound (c : RockerCode) :
    isValidForTeachIn (pressOutbound c) .standard = true := by
  simp [isValidForTeachIn, pressOutbound]

@[simp] theorem isValidForTeachIn_releaseOutbound : isValidForTeachIn releaseOutbound .standard = false := by decide

/-- A press telegram passes the gate (rule R111). -/
@[simp] theorem gateShut_pressOutbound (c : RockerCode) : gateShut (pressOutbound c) = false := by
  simp [gateShut, pressOutbound]

/-- The release telegram does not, as its `NU` is 0 (rule R111). -/
@[simp] theorem gateShut_releaseOutbound : gateShut releaseOutbound = true := by decide

/-- A press of the row's first code drives Rocker mode On (rule R114). -/
theorem nextRocker_press_dir1 (var : Variant) (ch : Channel) (hsa : Bool) :
    nextRocker (pressOutbound (dir1Code var ch)) (dir1Code var ch) (dir2Code var ch) hsa = some true := by
  simp [nextRocker, primaryMatch]

/-- A press of the row's second code drives Rocker mode Off: the first code is tested before and does not match (rules
R83, R114). -/
theorem nextRocker_press_dir2 (var : Variant) (ch : Channel) (hsa : Bool) :
    nextRocker (pressOutbound (dir2Code var ch)) (dir1Code var ch) (dir2Code var ch) hsa = some false := by
  simp [nextRocker, primaryMatch]

/-- Settles O36, from what `TEACH` accepts and what Rocker mode makes of a press and of the release telegram. -/
theorem encodedTelegramsUnderTheOtherOperations : Obligations.EncodedTelegramsUnderTheOtherOperations := by
  unfold Obligations.EncodedTelegramsUnderTheOtherOperations
  intro s var ch hsa csv csb hcs
  have rocker (t : Telegram) {ns : Option Bool} (h : nextRocker t (dir1Code var ch) (dir2Code var ch) hsa = ns) :
      exec (.nxtstRocker t (dir1Code var ch) (dir2Code var ch) hsa false csv csb) s =
        .next { s with rsp := stateResponse false ns } := by
    rw [← h]
    exact exec_nxtstOf .rocker t _ _ hsa false s hcs
  refine ⟨by simp [exec_teach], by simp [exec_teach], by simp [exec_teach], by simp [exec_teach],
    fun cmd => by simp [exec_teach],
    rocker _ (nextRocker_press_dir1 var ch hsa), rocker _ (nextRocker_press_dir2 var ch hsa), ?_⟩
  have release := rocker releaseOutbound (nextState_of_gateShut gateShut_releaseOutbound _ _ hsa .rocker none)
  rintro cmd (rfl | rfl)
  · exact release
  · exact release

/-! ## The round trip through the decoder -/

@[simp] theorem directional_event (cmd : Command) : directional cmd.event = true := by
  cases cmd <;> rfl

theorem event_ne_noEvent (cmd : Command) : cmd.event ≠ .noEvent := by
  cases cmd <;> decide

/-- The release telegram decodes by `LAST` alone (rule R98). -/
theorem decevDir_releaseOutbound (var : Variant) (ch : Channel) (last : BitVec 3) :
    decevDir releaseOutbound var ch last = releaseEvent last :=
  decevDir_release 0x00#8 var ch last

/-- A press telegram decodes by its code alone: it is no dual press (rules R95, R96). -/
theorem decevDir_pressOutbound (c : RockerCode) (var : Variant) (ch : Channel) (last : BitVec 3) :
    decevDir (pressOutbound c) var ch last =
      if codeIs (c.code.setWidth 3) (dir1Code var ch) then .dir1Pressed
      else if codeIs (c.code.setWidth 3) (dir2Code var ch) then .dir2Pressed
      else .noEvent := by
  rw [pressOutbound, decevDir_press, ← reservedBit_eq_getLsbD]
  simp [pressEvent, dualPress, dir1Event, dir2Event]

/-- Rule R134: the decoder recovers the command from its telegram. -/
theorem decevDir_encodeCommand {cmd : Command} {last : BitVec 3} (h : cmd.decodesUnder last) (var : Variant)
    (ch : Channel) : decevDir (encodeCommand cmd var ch) var ch last = cmd.event := by
  cases cmd with
  | dir1Pressed => simp [decevDir_pressOutbound, Command.event]
  | dir2Pressed => simp [decevDir_pressOutbound, Command.event]
  | dir1Released =>
    cases h
    exact decevDir_releaseOutbound var ch _
  | dir2Released =>
    cases h
    exact decevDir_releaseOutbound var ch _

/-- The telegram read from the response to an `ENCMD` request, decoded in the state which that request leaves. -/
theorem exec_decevDir_encmdOf (cmd : Command) (var : Variant) (ch : Channel) {last : BitVec 3} (s : State)
    (hlast : last ≠ 7#3) :
    exec (.decevDir (telegramOf (placeTelegram (encodeCommand cmd var ch))) var ch last)
        { s with rsp := placeTelegram (encodeCommand cmd var ch) } =
      .next { s with rsp := eventResponse (decevDir (encodeCommand cmd var ch) var ch last) } := by
  rw [telegramOf_placeTelegram, exec_decevDir _ _ _ _ hlast]

/-- Settles O35: a press decodes to its event under every `LAST`, and the release telegram by `LAST`. -/
theorem commandsRoundTripThroughTheDecoder : Obligations.CommandsRoundTripThroughTheDecoder := by
  unfold Obligations.CommandsRoundTripThroughTheDecoder
  intro s var ch last hlast
  have press (cmd : Command) (h : cmd.decodesUnder last) : ∃ u, exec (encmdOf cmd var ch) s = .next u ∧
      exec (.decevDir (telegramOf u.rsp) var ch last) u = .next { s with rsp := eventResponse cmd.event } := by
    refine ⟨_, exec_encmdOf cmd var ch s, ?_⟩
    rw [exec_decevDir_encmdOf cmd var ch s hlast, decevDir_encodeCommand h]
  refine ⟨press .dir1Pressed trivial, press .dir2Pressed trivial,
    _, exec_encmdOf .dir1Released var ch s, exec_encmdOf .dir2Released var ch s, ?_⟩
  rw [exec_decevDir_encmdOf .dir1Released var ch s hlast, encodeCommand_dir1Released, decevDir_releaseOutbound,
    eventResponse_releaseEvent]

/-! ## The events passed on for a channel -/

theorem eventsFor_append (j : Nat) (es fs : List Emission) :
    eventsFor j (es ++ fs) = eventsFor j es ++ eventsFor j fs := by
  induction es with
  | nil => rfl
  | cons e es ih =>
    cases e with
    | event i ev => by_cases h : i = j <;> simp [eventsFor, h, ih]
    | newState | telegram | codes => exact ih

/-- A handling passes on its event for its channel, unless it is NoEvent (rule R154). -/
theorem eventsFor_handlingEmissions {j : Nat} {c : Context} {t : Telegram} (h : contextEvent c t ≠ .noEvent) :
    eventsFor j (handlingEmissions j c t) = [contextEvent c t] := by
  have hstate : eventsFor j (stateEmission j c.cfg.ud (contextState c t)) = [] := by
    cases contextState c t <;> rfl
  rw [handlingEmissions, eventsFor_append, hstate, eventEmission, if_neg h]
  simp [eventsFor]

/-! ## A command delivered from one channel to another -/

/-- What channel `i` sends for a command (rule R155). -/
def State.outbound (s : State) (i : Nat) (cmd : Command) : Telegram :=
  encodeCommand cmd (s.context i).cfg.var (s.context i).cfg.ch

/-- The state after a `SEND` for channel `i` and the `RECV` of its telegram for channel `j`. -/
def State.delivered (s : State) (i j : Nat) (cmd : Command) : State :=
  (s.after (.send i cmd)).after (.recv j (s.outbound i cmd))

/-- Channel `j` is a directional channel of the variant and rocker of channel `i`, and both are set up. -/
structure State.Linked (s : State) (i j : Nat) : Prop where
  store_wf : Store.wf s.store
  sender_lt : i < Config.nch
  receiver_lt : j < Config.nch
  sender_configured : (s.context i).configured = true
  receiver_configured : (s.context j).configured = true
  same_var : (s.context i).cfg.var = (s.context j).cfg.var
  same_ch : (s.context i).cfg.ch = (s.context j).cfg.ch
  receiver_directional : (s.context j).cfg.act = false

/-- A handling leaves the channel configured, and its configuration alone (rule R15). -/
@[simp] theorem contextAfter_configured (c : Context) (t : Telegram) : (contextAfter c t).configured = c.configured :=
  rfl
@[simp] theorem contextAfter_cfg (c : Context) (t : Telegram) : (contextAfter c t).cfg = c.cfg := rfl

/-- `LE` after one handling (rule R152). -/
@[simp] theorem contextAfter_le (c : Context) (t : Telegram) :
    (contextAfter c t).le = lastAfter c.le (contextEvent c t) := rfl

/-- A delivery writes no context but the receiver's (rules R18, R155). -/
theorem State.context_delivered_other (s : State) (i : Nat) {j k : Nat} (cmd : Command) (h : k ≠ j) :
    (s.delivered i j cmd).context k = s.context k :=
  (s.after (.send i cmd)).context_after_other fun hj => h (Option.some.inj hj).symm

namespace State.Linked

variable {s : State} {i j : Nat} (cmd : Command)

/-- A run whose next two actions deliver a command goes on from the state after the delivery. -/
theorem run_delivery (h : s.Linked i j) (n : Nat) (rest : List CallerAction) :
    core.run (n + 2) { s with inbox := .send i cmd :: .recv j (s.outbound i cmd) :: rest } =
      core.run n { s.delivered i j cmd with inbox := rest } := by
  have hsend : s.allows (.send i cmd) := ⟨h.sender_lt, h.sender_configured⟩
  have hrecv : (s.after (.send i cmd)).allows (.recv j (s.outbound i cmd)) := ⟨h.receiver_lt, h.receiver_configured⟩
  exact (run_succ (step_of_allows _ hsend)).trans (run_succ (step_of_allows rest hrecv))

theorem context_delivered_receiver (h : s.Linked i j) :
    (s.delivered i j cmd).context j = contextAfter (s.context j) (s.outbound i cmd) :=
  Store.read_write_same j _ h.store_wf.1

/-- A delivery leaves every channel configured as it was (rule R15). -/
theorem delivered_configured (h : s.Linked i j) (k : Nat) :
    ((s.delivered i j cmd).context k).configured = (s.context k).configured := by
  by_cases hk : k = j
  · rw [hk, h.context_delivered_receiver, contextAfter_configured]
  · rw [s.context_delivered_other i cmd hk]

theorem delivered_cfg (h : s.Linked i j) (k : Nat) : ((s.delivered i j cmd).context k).cfg = (s.context k).cfg := by
  by_cases hk : k = j
  · rw [hk, h.context_delivered_receiver, contextAfter_cfg]
  · rw [s.context_delivered_other i cmd hk]

/-- The sender sends the same after a delivery. -/
theorem delivered_outbound (h : s.Linked i j) (cmd' : Command) :
    (s.delivered i j cmd).outbound i cmd' = s.outbound i cmd' := by
  rw [State.outbound, h.delivered_cfg, State.outbound]

theorem delivered (h : s.Linked i j) : (s.delivered i j cmd).Linked i j where
  store_wf := Store.write_wf _ h.store_wf h.receiver_lt
  sender_lt := h.sender_lt
  receiver_lt := h.receiver_lt
  sender_configured := (h.delivered_configured cmd i).trans h.sender_configured
  receiver_configured := (h.delivered_configured cmd j).trans h.receiver_configured
  same_var := by simpa only [h.delivered_cfg] using h.same_var
  same_ch := by simpa only [h.delivered_cfg] using h.same_ch
  receiver_directional := by simpa only [h.delivered_cfg] using h.receiver_directional

variable {cmd}

/-- The receiver decodes the command, where its `LE` lets it (rule R134). -/
theorem contextEvent_outbound (h : s.Linked i j) (hle : cmd.decodesUnder (s.context j).le) :
    contextEvent (s.context j) (s.outbound i cmd) = cmd.event := by
  rw [contextEvent, h.receiver_directional, State.outbound, h.same_var, h.same_ch]
  exact decevDir_encodeCommand hle _ _

/-- The receiver keeps the command's event as its last one (rule R152). -/
theorem delivered_le (h : s.Linked i j) (hle : cmd.decodesUnder (s.context j).le) :
    ((s.delivered i j cmd).context j).le = cmd.event.code := by
  rw [h.context_delivered_receiver, contextAfter_le, h.contextEvent_outbound hle, lastAfter, directional_event,
    if_pos rfl]

/-- The receiver reports the command's event; the `SEND` reports none (rules R154, R155). -/
theorem delivered_events (h : s.Linked i j) (hle : cmd.decodesUnder (s.context j).le) :
    eventsFor j (s.delivered i j cmd).emitted = eventsFor j s.emitted ++ [cmd.event] := by
  have hev := h.contextEvent_outbound hle
  have hsent : eventsFor j (s.after (.send i cmd)).emitted = eventsFor j s.emitted :=
    (eventsFor_append j _ _).trans (List.append_nil _)
  have hrecv : eventsFor j (handlingEmissions j (s.context j) (s.outbound i cmd)) = [cmd.event] := by
    rw [eventsFor_handlingEmissions (hev ▸ event_ne_noEvent cmd), hev]
  rw [← hsent, ← hrecv]
  exact eventsFor_append j _ _

/-- Two commands delivered one after the other, where the first is what the second needs as `LAST`. -/
theorem run_two_deliveries (h : s.Linked i j) {cmd₁ cmd₂ : Command} (hcmd₁ : cmd₁.decodesUnder (s.context j).le)
    (hcmd₂ : cmd₂.decodesUnder cmd₁.event.code) :
    ∃ u, core.run 4 { s with inbox := [.send i cmd₁, .recv j (s.outbound i cmd₁), .send i cmd₂,
        .recv j (s.outbound i cmd₂)] } = .next u ∧
      eventsFor j u.emitted = eventsFor j s.emitted ++ [cmd₁.event, cmd₂.event] ∧
      (u.context j).le = cmd₂.event.code ∧ ∀ k, k ≠ j → u.context k = s.context k := by
  have h' : (s.delivered i j cmd₁).Linked i j := h.delivered cmd₁
  have hle : cmd₂.decodesUnder ((s.delivered i j cmd₁).context j).le := by rwa [h.delivered_le hcmd₁]
  refine ⟨{ (s.delivered i j cmd₁).delivered i j cmd₂ with inbox := [] }, ?_, ?_, h'.delivered_le hle,
    fun k hk => ?_⟩
  · rw [h.run_delivery cmd₁ 2, ← h.delivered_outbound cmd₁ cmd₂]
    exact h'.run_delivery cmd₂ 0 []
  · calc eventsFor j ((s.delivered i j cmd₁).delivered i j cmd₂).emitted
        = eventsFor j (s.delivered i j cmd₁).emitted ++ [cmd₂.event] := h'.delivered_events hle
      _ = eventsFor j s.emitted ++ [cmd₁.event, cmd₂.event] := by
          rw [h.delivered_events hcmd₁, List.append_assoc, List.singleton_append]
  · exact (State.context_delivered_other _ i cmd₂ hk).trans (s.context_delivered_other i cmd₁ hk)

end State.Linked

/-- Settles O52: a press decodes under every `LAST`, and leaves the `LAST` that its release needs. -/
theorem sentCommandsArriveAsTheirEvents : Obligations.SentCommandsArriveAsTheirEvents := by
  unfold Obligations.SentCommandsArriveAsTheirEvents
  intro s i j hwf hi hj hci hcj hvar hch hact
  have h : s.Linked i j := ⟨hwf, hi, hj, hci, hcj, hvar, hch, hact⟩
  exact ⟨h.run_two_deliveries (cmd₁ := .dir1Pressed) (cmd₂ := .dir1Released) trivial rfl,
    h.run_two_deliveries (cmd₁ := .dir2Pressed) (cmd₂ := .dir2Released) trivial rfl⟩

end Sys2Proof.Machine

/-!
PROOFS of the teach-in validator: `TEACH` on every operand, and the operands it does not read (45_teach_in.md).
-/

namespace Sys2Proof.Machine

/-! ## `TEACH` on every operand -/

/-- Rule R141 under Standard, on the bits of the status byte. -/
theorem isValidForTeachIn_standard_iff (t : Telegram) :
    isValidForTeachIn t .standard = true ↔ t.t21 = true ∧ t.sb.getLsbD 4 = true ∧ t.sb.getLsbD 7 = false := by
  rw [isValidForTeachIn, primaryPressed_eq_getLsbD, reservedBit_eq_getLsbD, Bool.and_eq_true, Bool.and_eq_true,
    Bool.not_eq_true', and_assoc]

/-- Settles O37, by the variant. -/
theorem teachAcceptsStandardPresses : Obligations.TeachAcceptsStandardPresses := by
  unfold Obligations.TeachAcceptsStandardPresses
  intro s sb t21 nu var
  rw [exec_teach]
  cases var with
  | inverted => simp only [isValidForTeachIn_inverted, Bool.false_eq_true, if_true, if_false]
  | standard => simp only [isValidForTeachIn_standard_iff, reduceCtorEq, if_false]

/-! ## The operands that `TEACH` does not read -/

/-- Two bytes that agree under a mask have the same bit wherever the mask has one. -/
theorem hasBit_eq_of_and_eq {b b' mask : Byte} {n : BitVec 3} (h : b &&& mask = b' &&& mask)
    (hn : mask.getLsbD n.toNat = true) : hasBit b n = hasBit b' n := by
  have hmasked (c : Byte) : (c &&& mask).getLsbD n.toNat = hasBit c n := by
    rw [BitVec.getLsbD_and, hn, Bool.and_true, hasBit_eq_getLsbD]
  rw [← hmasked b, h, hmasked]

/-- Rules R142 and R143: of the status byte the validator reads the primary press flag and the reserved bit, and `NU` it
does not read. -/
theorem isValidForTeachIn_congr {sb sb' : Byte} (hp1 : primaryPressed sb = primaryPressed sb')
    (hrsv : reservedBit sb = reservedBit sb') (t21 nu nu' : Bool) (var : Variant) :
    isValidForTeachIn ⟨sb, t21, nu⟩ var = isValidForTeachIn ⟨sb', t21, nu'⟩ var := by
  simp only [isValidForTeachIn, hp1, hrsv]

/-- Settles O38: the mask keeps the two bits that the validator reads. -/
theorem teachReadsTwoBitsOfTheByte : Obligations.TeachReadsTwoBitsOfTheByte := by
  unfold Obligations.TeachReadsTwoBitsOfTheByte
  intro s sb sb' t21 nu nu' var hmask
  have hp1 : primaryPressed sb = primaryPressed sb' := hasBit_eq_of_and_eq hmask (by decide)
  have hrsv : reservedBit sb = reservedBit sb' := hasBit_eq_of_and_eq hmask (by decide)
  rw [exec_teach, exec_teach, isValidForTeachIn_congr hp1 hrsv]

end Sys2Proof.Machine

/-!
PROOFS of the channel sequencer: a `RECV` and a `SEND` as steps and as requests to the core, the invariant along every
step, and the press and release events of a directional channel along its telegrams (46_channel_sequencer.md).
-/

namespace Sys2Proof.Machine

/-! ## `LE` after an event -/

/-- The directional events are those with the codes 1 to 4 (rules R51, R152). -/
theorem directional_iff (ev : Event) : directional ev = true ↔ 1 ≤ ev.code.toNat ∧ ev.code.toNat ≤ 4 := by
  cases ev <;> simp [directional, Event.code]

/-- An event that is not directional leaves `LE` as it was (rule R152). -/
theorem lastAfter_of_not_directional (le : BitVec 3) {ev : Event} (h : directional ev = false) :
    lastAfter le ev = le := by
  simp [lastAfter, h]

/-- `LE` stays among the codes of rule R17 that a `RECV` writes. -/
theorem lastAfter_le_four {le : BitVec 3} (ev : Event) (h : le.toNat ≤ 4) : (lastAfter le ev).toNat ≤ 4 := by
  unfold lastAfter
  split_ifs with hdir
  · exact ((directional_iff ev).mp hdir).2
  · exact h

/-- No event of the action form is directional (rule R92). -/
theorem directional_decevAct (t : Telegram) : directional (decevAct t) = false := by
  unfold decevAct
  split_ifs <;> rfl

/-! ## The event of a telegram by the kind of the channel -/

/-- An action channel decodes in the action form (rule R151). -/
theorem contextEvent_of_action {c : Context} (h : c.cfg.act = true) (t : Telegram) :
    contextEvent c t = decevAct t := by
  rw [contextEvent, h]
  rfl

/-- Any other channel decodes in the directional form, with its `LE` as `LAST` (rule R151). -/
theorem contextEvent_of_directional {c : Context} (h : c.cfg.act = false) (t : Telegram) :
    contextEvent c t = decevDir t c.cfg.var c.cfg.ch c.le := by
  rw [contextEvent, h]
  rfl

/-- The event depends on `CFG` and `LE` alone: `DECEV` does not read `CS` (rule R150). -/
theorem contextEvent_congr {c d : Context} (hcfg : c.cfg = d.cfg) (hle : c.le = d.le) (t : Telegram) :
    contextEvent c t = contextEvent d t := by
  rw [contextEvent, contextEvent, hcfg, hle]

/-- A release telegram is decoded by `LAST` alone, unless its bit 7 is set (rules R90, R98). -/
theorem decevDir_of_releaseTelegram {t : Telegram} (h : releaseTelegram t = true) (var : Variant) (ch : Channel)
    (last : BitVec 3) :
    decevDir t var ch last = if t.sb.getLsbD 7 = true then .noEvent else releaseEvent last := by
  obtain ⟨sb, t21, nu⟩ := t
  obtain ⟨rfl, rfl⟩ : t21 = true ∧ nu = false := by simpa [releaseTelegram] using h
  exact decevDir_release sb var ch last

/-! ## The invariant -/

/-- The context of every channel is well formed, listed or not. -/
theorem State.context_wf {s : State} (h : ∀ x ∈ s.store, Context.wf x.2) (i : Nat) : Context.wf (s.context i) := by
  by_cases hreset : s.context i = Context.reset
  · rw [hreset]
    decide
  · exact h _ (Store.mem_of_read hreset)

/-- A write of a well-formed context to a channel that exists keeps the invariant. -/
theorem State.inv_setContext {s : State} {i : Nat} {c : Context} (h : s.inv) (hi : i < Config.nch)
    (hc : Context.wf c) : (s.setContext i c).inv := by
  obtain ⟨hwf, hctx, hports⟩ := h
  refine ⟨Store.write_wf c hwf hi, fun x hx => ?_, hports⟩
  rcases Store.mem_write hx with hold | ⟨rfl, -⟩
  · exact hctx x hold
  · exact hc

/-- A handling keeps the context of a configured channel well formed: on an action channel its event is none that
writes `LE` (rules R92, R152). -/
theorem writeBack_wf {c : Context} {ev : Event} (h : Context.wf c) (hconf : c.configured = true)
    (hev : c.cfg.act = true → directional ev = false) (ns : Option Bool) : Context.wf (writeBack c ev ns) := by
  obtain ⟨-, hle, hact⟩ := h
  refine ⟨fun hnot => ?_, lastAfter_le_four ev hle, fun ha => ?_⟩
  · exact absurd (hconf.symm.trans hnot) (by decide)
  · exact (lastAfter_of_not_directional c.le (hev ha)).trans (hact ha)

theorem directional_contextEvent_of_action {c : Context} (h : c.cfg.act = true) (t : Telegram) :
    directional (contextEvent c t) = false := by
  rw [contextEvent_of_action h, directional_decevAct]

theorem contextAfter_wf {c : Context} (h : Context.wf c) (hconf : c.configured = true) (t : Telegram) :
    Context.wf (contextAfter c t) :=
  writeBack_wf h hconf (directional_contextEvent_of_action · t) _

/-- The second handling of an overlap writes over the first with an event read from the context before both. -/
theorem contextAfterOverlap_wf {c : Context} (h : Context.wf c) (hconf : c.configured = true) (t1 t2 : Telegram) :
    Context.wf (contextAfterOverlap c t1 t2) :=
  writeBack_wf (contextAfter_wf h hconf t1) hconf (directional_contextEvent_of_action (c := c) · t2) _

/-- Every action of the caller keeps the invariant. -/
theorem handle_keeps_inv {s t : State} {a : CallerAction} (hinv : s.inv) (h : handle a s = .next t) : t.inv := by
  have ⟨hwf, hctx, _⟩ := hinv
  rcases handle_next h with ⟨w, -, rfl⟩ | ⟨var, ch, -, rfl⟩ | ⟨i, cmd, -, -, -, rfl⟩ | ⟨i, cfg, -, hi, rfl⟩ |
    ⟨i, tg, -, hi, hconf, rfl⟩ | ⟨i, t1, t2, -, hi, hconf, rfl⟩
  case inl => exact ⟨hwf, hctx, rfl⟩
  case inr.inl | inr.inr.inl => exact hinv
  case inr.inr.inr.inl => exact State.inv_setContext hinv hi ⟨nofun, Nat.zero_le 4, fun _ => rfl⟩
  case inr.inr.inr.inr.inl => exact State.inv_setContext hinv hi (contextAfter_wf (State.context_wf hctx i) hconf tg)
  case inr.inr.inr.inr.inr =>
    exact State.inv_setContext hinv hi (contextAfterOverlap_wf (State.context_wf hctx i) hconf t1 t2)

/-- Settles O12: a step is the core on its input port, or the handling of an action. -/
theorem stepKeepsTheInvariant : Obligations.StepKeepsTheInvariant := by
  unfold Obligations.StepKeepsTheInvariant
  intro s t hinv h
  rcases step_next h with ⟨-, rfl⟩ | ⟨a, rest, -, hact⟩
  · obtain ⟨hwf, hctx, -⟩ := hinv
    exact ⟨hwf, hctx, rfl⟩
  · exact handle_keeps_inv (s := { s with inbox := rest }) hinv hact

/-! ## A press and its releases -/

/-- 1 while `LE` is a press, which is not released yet, and else 0. -/
def Context.openPresses (c : Context) : Nat := if c.le = 1#3 ∨ c.le = 3#3 then 1 else 0

/-- A release telegram gives no event unless `LAST` is a press (rule R98). -/
theorem releaseEvent_of_not_press {last : BitVec 3} (h : ¬ (last = 1#3 ∨ last = 3#3)) :
    releaseEvent last = .noEvent := by
  obtain ⟨h1, h3⟩ := not_or.mp h
  exact (if_neg h1).trans (if_neg h3)

/-- Where a release telegram gives a directional channel an event, a press is open (rule R98). -/
theorem openPresses_of_release {c : Context} {t : Telegram} (hact : c.cfg.act = false)
    (hrel : releaseTelegram t = true) (hev : contextEvent c t ≠ .noEvent) : c.openPresses = 1 := by
  refine if_pos ?_
  by_contra hle
  refine hev ?_
  rw [contextEvent_of_directional hact, decevDir_of_releaseTelegram hrel, releaseEvent_of_not_press hle, ite_self]

/-- The open presses after a handling (rule R152). -/
theorem openPresses_contextAfter (c : Context) (t : Telegram) :
    (contextAfter c t).openPresses =
      if contextEvent c t = .dir1Pressed ∨ contextEvent c t = .dir2Pressed then 1
      else if directional (contextEvent c t) then 0 else c.openPresses := by
  rw [Context.openPresses, contextAfter_le]
  cases contextEvent c t <;> rfl

theorem releasedCount_cons (c : Context) (t : Telegram) (ts : List Telegram) :
    releasedCount c (t :: ts) = releasedCount c [t] + releasedCount (contextAfter c t) ts := rfl

theorem pressedCount_cons (c : Context) (t : Telegram) (ts : List Telegram) :
    pressedCount c (t :: ts) = pressedCount c [t] + pressedCount (contextAfter c t) ts := rfl

/-- A telegram's release event closes the open press, and a press event opens one. -/
theorem releasedCount_one_le {c : Context} (hact : c.cfg.act = false) (t : Telegram) :
    releasedCount c [t] + (contextAfter c t).openPresses ≤ pressedCount c [t] + c.openPresses := by
  have hrelease := openPresses_of_release (t := t) hact
  rw [openPresses_contextAfter]
  cases hev : contextEvent c t with
  | dir1Pressed | dir2Pressed => simp [releasedCount, pressedCount, hev]
  | dir1Released | dir2Released =>
    by_cases hrel : releaseTelegram t = true
    · simp [releasedCount, pressedCount, hev, hrel, directional, hrelease hrel (by simp [hev])]
    · simp [releasedCount, pressedCount, hev, hrel, directional]
  | noEvent | released | action => simp [releasedCount, pressedCount, hev, directional]

/-- Settles O50, by induction on the telegrams: the open press is what the releases may be ahead of the presses. -/
theorem onePressYieldsAtMostOneRelease : Obligations.OnePressYieldsAtMostOneRelease := by
  unfold Obligations.OnePressYieldsAtMostOneRelease
  intro c ts hact
  change releasedCount c ts ≤ pressedCount c ts + c.openPresses
  induction ts generalizing c with
  | nil => exact Nat.zero_le _
  | cons t ts ih =>
    have hhead := releasedCount_one_le hact t
    have htail := ih (contextAfter c t) hact
    rw [releasedCount_cons, pressedCount_cons]
    omega

/-! ## Telegrams without an event -/

@[simp] theorem contextRun_cfg (c : Context) (ts : List Telegram) : (contextRun c ts).cfg = c.cfg := by
  induction ts generalizing c with
  | nil => rfl
  | cons t ts ih => exact ih (contextAfter c t)

/-- A telegram without an event leaves `LE` as it was (rule R152). -/
theorem contextAfter_le_of_noEvent {c : Context} {t : Telegram} (h : contextEvent c t = .noEvent) :
    (contextAfter c t).le = c.le := by
  rw [contextAfter_le, h, lastAfter_of_not_directional c.le rfl]

/-- Telegrams none of which means anything under a context leave its `LE` as it was, so that each is still without an
event when its turn comes. -/
theorem contextRun_le_of_noEvent {c : Context} {ts : List Telegram} (h : ∀ x ∈ ts, contextEvent c x = .noEvent) :
    (contextRun c ts).le = c.le := by
  induction ts generalizing c with
  | nil => rfl
  | cons t ts ih =>
    obtain ⟨hhead, htail⟩ := List.forall_mem_cons.mp h
    have hle := contextAfter_le_of_noEvent hhead
    have hsame := contextEvent_congr (contextAfter_cfg c t) hle
    exact (ih fun x hx => (hsame x).trans (htail x hx)).trans hle

/-- Settles O51: the release is decoded under the `LE` of the press. -/
theorem foreignTelegramsKeepTheLastPress : Obligations.ForeignTelegramsKeepTheLastPress := by
  unfold Obligations.ForeignTelegramsKeepTheLastPress
  intro c ts t hact hforeign ht21 hnu h7
  have hrel : releaseTelegram t = true := by simp [releaseTelegram, ht21, hnu]
  have hevent : contextEvent (contextRun c ts) t = releaseEvent c.le := by
    rw [contextEvent_of_directional (by simpa using hact), decevDir_of_releaseTelegram hrel,
      h7, if_neg Bool.false_ne_true, contextRun_le_of_noEvent hforeign]
  constructor
  all_goals
    intro hle
    rw [hevent, hle]
    rfl

/-! ## A `RECV` and a `SEND` as steps -/

/-- The whole next state of a `RECV` for a configured channel (rules R150 to R154). -/
theorem step_recv {s : State} {i : Nat} {t : Telegram} {rest : List CallerAction} (h : s.inbox = .recv i t :: rest)
    (hi : i < Config.nch) (hc : (s.context i).configured = true) :
    step s = .next { s with
      store := Store.write s.store i (contextAfter (s.context i) t)
      inbox := rest
      emitted := s.emitted ++ handlingEmissions i (s.context i) t } :=
  (step_cons h).trans (recv_of_configured (s := { s with inbox := rest }) hi hc t)

/-- Settles O39: the fields of the state after the `RECV`, read off one by one. -/
theorem recvHandlesOneTelegram : Obligations.RecvHandlesOneTelegram := by
  unfold Obligations.RecvHandlesOneTelegram
  intro s i t rest hwf hin hi hconf c ev ns
  have hev : contextEvent (s.context i) t = ev := rfl
  have hns : contextState (s.context i) t = ns := rfl
  have hafter : (s.setContext i (contextAfter (s.context i) t)).context i = contextAfter (s.context i) t :=
    State.context_setContext_same _ hwf
  clear_value ev ns
  refine ⟨_, step_recv hin hi hconf, ?_, ?_, ?_, ?_, fun j hj => State.context_setContext_other s _ hj, ?_, rfl, rfl,
    rfl, Store.write_wf _ hwf hi⟩
  · exact (congrArg Context.configured hafter).trans hconf
  · exact (congrArg Context.cfg hafter).trans (contextAfter_cfg _ t)
  · refine (congrArg Context.le hafter).trans ?_
    rw [contextAfter_le, hev, lastAfter]
    simp only [directional_iff, c]
  · refine (congrArg Context.cs hafter).trans ?_
    rw [contextAfter_cs, hns]
    cases ns <;> rfl
  · rw [List.append_assoc, handlingEmissions, hev, hns]
    cases ns <;> rfl

/-- Settles O44: the step is the handling of the `SEND`. -/
theorem sendWritesNoContext : Obligations.SendWritesNoContext := by
  unfold Obligations.SendWritesNoContext
  intro s i cmd rest hin hi hconf
  exact (step_cons hin).trans (send_of_configured (s := { s with inbox := rest }) hi hconf cmd)

/-! ## The procedures as requests to the core -/

/-- The core answers the word of a valid request with the response to the request. -/
theorem blockResponse_encode {i : Instr} (h : i.wf = true) : blockResponse (encode i) = responseOf i := by
  rw [blockResponse, decodeReadsBackEveryValidRequest i h]

theorem recvDecev_eq (c : Context) (t : Telegram) :
    recvDecev c t = decevOf c.cfg.act t c.cfg.var c.cfg.ch c.le := rfl

theorem recvNxtst_eq (c : Context) (t : Telegram) :
    recvNxtst c t = nxtstOf c.cfg.mode t (dir1Code c.cfg.var c.cfg.ch) (dir2Code c.cfg.var c.cfg.ch) c.cfg.hsa c.cfg.ud
      (stateValidBit c.cs) (stateValueBit c.cs) := by
  unfold recvNxtst nxtstOf
  cases c.cfg.mode <;> rfl

theorem sendEncmd_eq (c : Context) (cmd : Command) : sendEncmd c cmd = encmdOf cmd c.cfg.var c.cfg.ch := by
  cases cmd <;> rfl

theorem responseOf_encmdOf (cmd : Command) (var : Variant) (ch : Channel) :
    responseOf (encmdOf cmd var ch) = telegramResponse (encodeCommand cmd var ch) := by
  cases cmd <;> rfl

/-- The two bits of an optional state are a valid operand (rule R52). -/
@[simp] theorem stateValid_bits (cs : Option Bool) : stateValid (stateValidBit cs) (stateValueBit cs) = true := by
  cases cs <;> rfl

/-- An optional state is read back from its two bits (rule R52). -/
@[simp] theorem stateOperand_bits (cs : Option Bool) : stateOperand (stateValidBit cs) (stateValueBit cs) = cs := by
  cases cs <;> rfl

/-- Settles O40: each request the caller assembles is valid, so the core reads it back from its word and answers it. -/
theorem recvAndSendAreCoreRequests : Obligations.RecvAndSendAreCoreRequests := by
  unfold Obligations.RecvAndSendAreCoreRequests
  intro c t cmd hle
  have hlast : lastValid c.le = true := (lastValid_iff c.le).mpr hle
  refine ⟨?_, ?_, ?_⟩
  · rw [recvDecev_eq, blockResponse_encode (by rw [wf_decevOf, hlast]), responseOf_decevOf, hlast]
    rfl
  · rw [recvNxtst_eq, blockResponse_encode (by rw [wf_nxtstOf, stateValid_bits]), responseOf_nxtstOf, stateValid_bits,
      stateOperand_bits]
    rfl
  · rw [sendEncmd_eq, blockResponse_encode (wf_encmdOf cmd _ _), responseOf_encmdOf]

end Sys2Proof.Machine

/-!
PROOFS. The statements of 70_reset_and_hazards.md: where a step stops and where it does not, a prepared list of actions
handled to its end, the configuration of a channel along a step, and the toggle that an overlap loses.
-/

namespace Sys2Proof.Machine

/-! ## The stops of a step -/

/-- An action that completes is one the caller is prepared for: the converse of `handle_of_allows`. -/
theorem allows_of_handle {s t : State} {a : CallerAction} (h : handle a s = .next t) : s.allows a := by
  rcases handle_next h with ⟨w, rfl, -⟩ | ⟨var, ch, rfl, -⟩ | ⟨i, cmd, rfl, hi, hc, -⟩ | ⟨i, cfg, rfl, hi, -⟩ |
    ⟨i, tg, rfl, hi, hc, -⟩ | ⟨i, t1, t2, rfl, hi, hc, -⟩
  case inl | inr.inl => trivial
  case inr.inr.inr.inl => exact hi
  all_goals exact ⟨hi, hc⟩

/-- The caller is prepared for exactly the actions that complete (rules R28, R187). -/
theorem allows_iff_handle (s : State) (a : CallerAction) : s.allows a ↔ ∃ t, handle a s = .next t :=
  ⟨fun h => ⟨_, handle_of_allows h⟩, fun ⟨_, h⟩ => allows_of_handle h⟩

/-- Settles O46: the core answers every word at its input port, and a waiting action is handled, for which the caller
is prepared with it waiting iff it is with it taken off the list. -/
theorem stepStopsOnlyUnprepared : Obligations.StepStopsOnlyUnprepared := by
  unfold Obligations.StepStopsOnlyUnprepared
  intro s
  constructor
  · intro hidle
    exact ⟨_, (step_nil hidle).trans (runRequest_eq_respond s)⟩
  · intro a rest hin
    have hsame : s.allows a ↔ ({ s with inbox := rest } : State).allows a :=
      ⟨State.allows_congr fun _ _ => rfl, State.allows_congr fun _ _ => rfl⟩
    rw [step_cons hin, hsame]
    exact allows_iff_handle _ a

/-! ## A prepared list of actions -/

/-- The context an action leaves of the channel whose context it writes. -/
theorem State.context_after_same {s : State} {a : CallerAction} {i : Nat} (hwf : Store.wf s.store)
    (h : a.writes = some i) : (s.after a).context i = a.written (s.context i) := by
  unfold State.context
  rw [State.after_store, h]
  exact Store.read_write_same i _ hwf.1

/-- An action that the caller is prepared for keeps the store in its canonical form. -/
theorem State.after_store_wf {s : State} {a : CallerAction} (hwf : Store.wf s.store) (ha : s.allows a) :
    Store.wf (s.after a).store := by
  rw [State.after_store]
  cases hw : a.writes with
  | none => exact hwf
  | some i => exact Store.write_wf _ hwf (State.lt_nch_of_allows ha (CallerAction.channel_of_writes hw))

/-- No action unmakes a channel (rules R15, R188). -/
theorem CallerAction.written_configured {c : Context} (a : CallerAction) (h : c.configured = true) :
    (a.written c).configured = true := by
  cases a with
  | configure => rfl
  | request | dirs | send | recv | recvOverlap => exact h

/-- A configured channel stays configured over an action. -/
theorem State.configured_after {s : State} {a : CallerAction} {i : Nat} (hwf : Store.wf s.store) (ha : s.allows a)
    (h : (s.context i).configured = true) : ((s.after a).context i).configured = true := by
  by_cases hw : a.writes = some i
  · rw [State.context_after_same hwf hw]
    exact a.written_configured h
  · rw [handle_context_other (handle_of_allows ha) hw]
    exact h

/-- The channels known to be configured after an action: a configuration adds its own. -/
def CallerAction.nowDone (done : List Nat) : CallerAction → List Nat
  | .configure i _ => i :: done
  | .request _ => done
  | .dirs _ _ => done
  | .recv _ _ => done
  | .recvOverlap _ _ _ => done
  | .send _ _ => done

/-- What is known to be configured after an action is configured. -/
theorem State.nowDone_configured {s : State} {a : CallerAction} {done : List Nat} (hwf : Store.wf s.store)
    (ha : s.allows a) (hdone : ∀ i ∈ done, (s.context i).configured = true) :
    ∀ i ∈ a.nowDone done, ((s.after a).context i).configured = true := by
  have hkept : ∀ i ∈ done, ((s.after a).context i).configured = true := fun i hi =>
    State.configured_after hwf ha (hdone i hi)
  cases a with
  | request | dirs | recv | recvOverlap | send => exact hkept
  | configure i cfg =>
    have hnew : ((s.after (.configure i cfg)).context i).configured = true :=
      congrArg Context.configured (State.context_after_same hwf rfl)
    exact List.forall_mem_cons.2 ⟨hnew, hkept⟩

/-- The first action of a prepared list is one the caller is prepared for, and the others are a prepared list after
it. -/
theorem prepared_cons {s : State} {a : CallerAction} {rest : List CallerAction} {done : List Nat}
    (hdone : ∀ i ∈ done, (s.context i).configured = true) (h : prepared done (a :: rest)) :
    s.allows a ∧ prepared (a.nowDone done) rest := by
  cases a with
  | request | dirs => exact ⟨trivial, h⟩
  | configure => exact h
  | recv i | recvOverlap i | send i =>
    obtain ⟨⟨hi, hmem⟩, hrest⟩ := h
    exact ⟨⟨hi, hdone i hmem⟩, hrest⟩

/-- A prepared list is handled to its end: each action in turn is one the caller is prepared for, and what it leaves
has the channels configured that the rest of the list relies on. -/
theorem run_of_prepared {actions : List CallerAction} {s : State} {done : List Nat} (hwf : Store.wf s.store)
    (hdone : ∀ i ∈ done, (s.context i).configured = true) (h : prepared done actions) :
    ∃ t, core.run actions.length { s with inbox := actions } = .next t ∧ t.inbox = [] ∧ Store.wf t.store := by
  induction actions generalizing s done with
  | nil => exact ⟨_, run_zero _, rfl, hwf⟩
  | cons a rest ih =>
    obtain ⟨ha, hrest⟩ := prepared_cons hdone h
    rw [List.length_cons, run_succ (step_of_allows rest ha)]
    exact ih (State.after_store_wf hwf ha) (State.nowDone_configured hwf ha hdone) hrest

/-- Settles O47: the list is the one that is waiting. -/
theorem preparedRunsAreNeverStopped : Obligations.PreparedRunsAreNeverStopped := by
  unfold Obligations.PreparedRunsAreNeverStopped
  intro s done hwf hdone h
  exact run_of_prepared hwf hdone h

/-! ## The configuration of a channel -/

/-- Two overlapping handlings leave the channel configured, and its configuration alone (rule R15). -/
@[simp] theorem contextAfterOverlap_configured (c : Context) (t1 t2 : Telegram) :
    (contextAfterOverlap c t1 t2).configured = c.configured := rfl
@[simp] theorem contextAfterOverlap_cfg (c : Context) (t1 t2 : Telegram) :
    (contextAfterOverlap c t1 t2).cfg = c.cfg := rfl

/-- No step but a configuration of the channel writes `CFG[i]` or makes the channel or unmakes it (rule R188). -/
theorem step_keeps_cfg {s t : State} {i : Nat} (hwf : Store.wf s.store) (h : step s = .next t)
    (hin : ∀ cfg rest, s.inbox ≠ .configure i cfg :: rest) :
    (t.context i).cfg = (s.context i).cfg ∧ (t.context i).configured = (s.context i).configured := by
  rcases step_context hwf h i with hc | ⟨cfg, rest, hconf, -⟩ | ⟨tg, -, -, hc⟩ | ⟨t1, t2, -, -, hc⟩
  · rw [hc]
    exact ⟨rfl, rfl⟩
  · exact absurd hconf (hin cfg rest)
  · rw [hc]
    exact ⟨contextAfter_cfg _ tg, contextAfter_configured _ tg⟩
  · rw [hc]
    exact ⟨contextAfterOverlap_cfg _ t1 t2, contextAfterOverlap_configured _ t1 t2⟩

/-- The whole next state of a configuration of a channel that exists (rules R187, R188). -/
theorem step_configure {s : State} {i : Nat} {cfg : Cfg} {rest : List CallerAction}
    (h : s.inbox = .configure i cfg :: rest) (hi : i < Config.nch) :
    step s = .next { s.setContext i { configured := true, cfg := cfg, cs := none, le := 0#3 } with inbox := rest } :=
  (step_cons h).trans (configure_of_lt (s := { s with inbox := rest }) hi cfg)

/-- Settles O42: what a step can do to a context, and the next state of a configuration. -/
theorem configurationIsConstantPerChannel : Obligations.ConfigurationIsConstantPerChannel := by
  unfold Obligations.ConfigurationIsConstantPerChannel
  constructor
  · intro s t i hwf h hin
    exact step_keeps_cfg hwf h hin
  · intro s i cfg rest hwf hin hi
    exact ⟨_, step_configure hin hi, State.context_setContext_same _ hwf,
      fun j hj => State.context_setContext_other s _ hj, rfl, rfl, rfl, rfl⟩

/-! ## The toggle that an overlap loses -/

/-- The code whose presses toggle the state of a channel: that of one direction in each toggle mode (rules R115,
R116). -/
def Cfg.toggleCode (cfg : Cfg) : Option RockerCode :=
  match cfg.mode with
  | .rocker => none
  | .toggleOnDir1 => some (dir1Code cfg.var cfg.ch)
  | .toggleOnDir2 => some (dir2Code cfg.var cfg.ch)

/-- In a toggle mode the new state is that of rule R115 with the mode's code. -/
theorem contextState_of_toggleCode {c : Context} {code : RockerCode} (h : c.cfg.toggleCode = some code)
    (t : Telegram) : contextState c t = nextTgl1 t code c.cfg.hsa c.cs := by
  unfold Cfg.toggleCode at h
  unfold contextState
  cases hmode : c.cfg.mode with
  | rocker =>
    rw [hmode] at h
    cases h
  | toggleOnDir1 | toggleOnDir2 =>
    rw [hmode] at h
    cases h
    rfl

/-- A press of the code in the primary slot flips the state, once past the gate (rules R111, R115). -/
theorem nextTgl1_of_primaryMatch {t : Telegram} {code : RockerCode} (hgate : gateShut t = false)
    (hpress : primaryMatch t.sb code = true) (hsa : Bool) (cs : Option Bool) :
    nextTgl1 t code hsa cs = some (toggled cs) := by
  have hslot : pressOf t.sb hsa code = true := by rw [pressOf, hpress, Bool.true_or]
  rw [nextTgl1, hgate, if_neg Bool.false_ne_true, if_pos hslot]

/-- A telegram flips whatever state a channel of a configuration has. -/
def Cfg.flippedBy (cfg : Cfg) (t : Telegram) : Prop :=
  ∀ c : Context, c.cfg = cfg → contextState c t = some (toggled c.cs)

/-- A press of the toggling direction flips the state. -/
theorem Cfg.flippedBy_of_primaryMatch {cfg : Cfg} {t : Telegram} {code : RockerCode}
    (hcode : cfg.toggleCode = some code) (hgate : gateShut t = false) (hpress : primaryMatch t.sb code = true) :
    cfg.flippedBy t := by
  rintro c rfl
  rw [contextState_of_toggleCode hcode]
  exact nextTgl1_of_primaryMatch hgate hpress _ _

/-- A flip of a flip; an undefined state counts as Off (rule R118). -/
theorem toggled_some_toggled (cs : Option Bool) : toggled (some (toggled cs)) = cs.getD false := Bool.not_not _

/-- The second of two handlings in order reads what the first wrote, and flips it back. -/
theorem contextAfter_twice_cs {c : Context} {t : Telegram} (h : c.cfg.flippedBy t) :
    (contextAfter (contextAfter c t) t).cs = some (c.cs.getD false) := by
  have hfirst : (contextAfter c t).cs = some (toggled c.cs) := by
    rw [contextAfter_cs, h c rfl]
    rfl
  rw [contextAfter_cs, h _ (contextAfter_cfg c t), hfirst, toggled_some_toggled]
  rfl

/-- The second of two overlapping handlings reads the context from before the first, and flips the same state. -/
theorem contextAfterOverlap_twice_cs {c : Context} {t : Telegram} (h : c.cfg.flippedBy t) :
    (contextAfterOverlap c t t).cs = some (!c.cs.getD false) := by
  rw [contextAfterOverlap_cs, h c rfl]
  rfl

/-- Settles O49: the telegram is a press of the toggling direction, and each of the two runs leaves the context its
handlings compute. -/
theorem overlapLosesAToggle : Obligations.OverlapLosesAToggle := by
  unfold Obligations.OverlapLosesAToggle
  intro s i t hwf hi hconf ht21 hnu h7 h4 hmode
  have hgate : gateShut t = false := by
    rw [← Bool.not_eq_true, gateShut_iff, h7, ht21, hnu]
    decide
  have hflip : (s.context i).cfg.flippedBy t := by
    rcases hmode with ⟨hmode, hcode⟩ | ⟨hmode, hcode⟩
    all_goals
      refine Cfg.flippedBy_of_primaryMatch ?_ hgate ((primaryMatch_iff _ _).2 ⟨h4, hcode⟩)
      rw [Cfg.toggleCode, hmode]
  have hrecv : s.allows (.recv i t) := ⟨hi, hconf⟩
  constructor
  · have hfirst : (s.after (.recv i t)).context i = contextAfter (s.context i) t := State.context_after_same hwf rfl
    have hagain : (s.after (.recv i t)).allows (.recv i t) := ⟨hi, State.configured_after hwf hrecv hconf⟩
    have hboth : ((s.after (.recv i t)).after (.recv i t)).context i = contextAfter (contextAfter (s.context i) t) t :=
      (State.context_after_same (State.after_store_wf hwf hrecv) rfl).trans (congrArg (contextAfter · t) hfirst)
    exact ⟨_, run_two_of_allows hrecv hagain, (congrArg Context.cs hboth).trans (contextAfter_twice_cs hflip)⟩
  · have hoverlap : s.allows (.recvOverlap i t t) := ⟨hi, hconf⟩
    have hboth : (s.after (.recvOverlap i t t)).context i = contextAfterOverlap (s.context i) t t :=
      State.context_after_same hwf rfl
    exact ⟨_, step_of_allows [] hoverlap, (congrArg Context.cs hboth).trans (contextAfterOverlap_twice_cs hflip)⟩

end Sys2Proof.Machine

/-!
PROOFS. The sample words of 95_test_vectors.md and the state after reset: the first are the encoder's words of the
requests beside them, the second starts the induction that `stepKeepsTheInvariant` carries on.
-/

namespace Sys2Proof.Machine

/-- A word decodes to the request that the encoder writes as it, where the request is valid (rules R42 to R45). -/
theorem decode_of_encode_eq {w : Word} {i : Instr} (hwf : i.wf = true) (h : encode i = w) : decode w = .ok i := by
  rw [← h, decodeReadsBackEveryValidRequest i hwf]

/-- Settles O7: each request is valid, and the word beside it is the one the encoder writes. -/
theorem sampleWordsDecode : Obligations.SampleWordsDecode := by
  unfold Obligations.SampleWordsDecode
  refine ⟨?rt7, ?da22, ?nx28, ?en15, ?te5⟩
  all_goals exact decode_of_encode_eq (by decide) (by decide)

/-- The word of a valid `DECEV` request of another telegram type answers 0, the word of NoEvent (rules R46, R99). -/
theorem blockResponse_decevOf_not_button {t : Telegram} {last : BitVec 3} (ht : t.t21 = false)
    (hlast : lastValid last = true) (act : Bool) (var : Variant) (ch : Channel) :
    blockResponse (encode (decevOf act t var ch last)) = 0#32 := by
  have hwf : (decevOf act t var ch last).wf = true := by rw [wf_decevOf, hlast]
  calc blockResponse (encode (decevOf act t var ch last))
      = checked (lastValid last) (eventResponse (decodeEvent t var ch act last)) := by
        rw [blockResponse_encode hwf, responseOf_decevOf]
    _ = eventResponse .noEvent := by rw [hlast, decodeEvent_of_not_button ht, checked, if_pos rfl]
    _ = 0#32 := eventResponse_noEvent

/-- The word 0 is such a request: `DECEV.DIR` with every field 0 (rule R42). -/
theorem blockResponse_zero : blockResponse 0#32 = 0#32 := by
  have hword : encode (decevOf false ⟨0x00#8, false, false⟩ .standard .a 0#3) = 0#32 := by decide
  rw [← hword, blockResponse_decevOf_not_button rfl (by decide), hword]

/-- Settles O11: no context is listed, and the word 0 answers itself at the ports. -/
theorem resetMeetsTheInvariant : Obligations.ResetMeetsTheInvariant :=
  ⟨Store.nil_wf, nofun, blockResponse_zero.symm⟩

end Sys2Proof.Machine
